-- ==== Sys2Proof/Word.lean ====
section
/-! DEFINITION. Word types of OT-LCD: every quantity the block sends or is given is an unsigned byte
(`00_scope.md` R11, R14), a pin identifier is an opaque byte, a request word has 80 bits
(`30_encoding.md` R70). -/

namespace Sys2Proof

/-- An operand, a frame, a mask or a controller byte: 8 bits unsigned (R11 `OPERAND_W`, `MASK_W`). -/
abbrev Byte := BitVec 8

/-- A pin identifier, opaque to the block (R11 `PIN_W`, R21). -/
abbrev PinId := BitVec 8

/-- The host's request word `REQ[79:0]` (R70). -/
abbrev ReqWord := BitVec 80

end Sys2Proof
end

