-- ==== Sys2Proof/Syntax.lean ====
section
/-! DEFINITION. The nineteen host operations (R3, R72), one constructor per row of
`spec/opcode_table.json`, operands in the order of R86. -/

namespace Sys2Proof

/-- A host operation with its operands; every operand is an 8-bit unsigned value (R71). -/
inductive Instr where
  /-- `0x00` INIT (R100) -/
  | init (dataPin clockPin enablePin : PinId) (lines font : Byte)
  /-- `0x01` CLEAR (R140) -/
  | clear
  /-- `0x02` HOME (R141) -/
  | home
  /-- `0x03` SETCURSOR (R142) -/
  | setCursor (col row : Byte)
  /-- `0x04` DISPLAY (R161) -/
  | display
  /-- `0x05` NODISPLAY (R162) -/
  | noDisplay
  /-- `0x06` CURSOR (R163) -/
  | cursor
  /-- `0x07` NOCURSOR (R164) -/
  | noCursor
  /-- `0x08` BLINK (R165) -/
  | blink
  /-- `0x09` NOBLINK (R166) -/
  | noBlink
  /-- `0x0A` SCROLLLEFT (R144) -/
  | scrollLeft
  /-- `0x0B` SCROLLRIGHT (R145) -/
  | scrollRight
  /-- `0x0C` SHIFTLEFT (R167) -/
  | shiftLeft
  /-- `0x0D` SHIFTRIGHT (R168) -/
  | shiftRight
  /-- `0x0E` SHIFTINC (R169) -/
  | shiftInc
  /-- `0x0F` SHIFTDEC (R170) -/
  | shiftDec
  /-- `0x10` CREATECHAR (R146) -/
  | createChar (location g0 g1 g2 g3 g4 g5 g6 g7 : Byte)
  /-- `0x11` WRITE (R123) -/
  | write (byte : Byte)
  /-- `0x12` COMMAND (R124) -/
  | command (byte : Byte)
  deriving DecidableEq, Repr

/-- Is the operation INIT, the only one accepted before initialization (R184)? -/
def Instr.isInit : Instr → Bool
  | .init .. => true
  | .clear | .home | .setCursor .. | .display | .noDisplay | .cursor | .noCursor | .blink | .noBlink
  | .scrollLeft | .scrollRight | .shiftLeft | .shiftRight | .shiftInc | .shiftDec
  | .createChar .. | .write _ | .command _ => false

end Sys2Proof
end

