-- ==== Sys2Proof/Decode.lean ====
section
/-! DEFINITION. Request words: the fields of `REQ80` (R70, R71), the decoder (R72, R73) and the
encoder. -/

namespace Sys2Proof

/-- Why a request names no operation. -/
inductive DecodeError where
  /-- The op code is one of `0x13` to `0xFF` (R73). -/
  | reservedOp (op : Byte)
  /-- A byte string that is not ten bytes long: "one length and one format" (R73). -/
  | wrongLength (bytes : Nat)
  deriving DecidableEq, Repr

/-- The byte whose least significant bit is bit `lo` of the request word. -/
def ReqWord.byteAt (w : ReqWord) (lo : Nat) : Byte := w.extractLsb' lo 8

/-- `op`, bits 79:72 (R70). -/
def reqOp (w : ReqWord) : Byte := ReqWord.byteAt w 72
/-- `a`, bits 71:64 (R70). -/
def reqA (w : ReqWord) : Byte := ReqWord.byteAt w 64
/-- `b`, also `g0`, bits 63:56 (R70). -/
def reqB (w : ReqWord) : Byte := ReqWord.byteAt w 56
/-- `g1`, bits 55:48 (R70). -/
def reqG1 (w : ReqWord) : Byte := ReqWord.byteAt w 48
/-- `g2`, bits 47:40 (R70). -/
def reqG2 (w : ReqWord) : Byte := ReqWord.byteAt w 40
/-- `g3`, bits 39:32 (R70). -/
def reqG3 (w : ReqWord) : Byte := ReqWord.byteAt w 32
/-- `g4`, bits 31:24 (R70). -/
def reqG4 (w : ReqWord) : Byte := ReqWord.byteAt w 24
/-- `g5`, bits 23:16 (R70). -/
def reqG5 (w : ReqWord) : Byte := ReqWord.byteAt w 16
/-- `g6`, bits 15:8 (R70). -/
def reqG6 (w : ReqWord) : Byte := ReqWord.byteAt w 8
/-- `g7`, bits 7:0 (R70). -/
def reqG7 (w : ReqWord) : Byte := ReqWord.byteAt w 0

/-- The decoder: it looks at `REQ[79:72]` only and takes the operands of R71. A reserved op code is
rejected (R72, R73). -/
def decode (w : ReqWord) : Except DecodeError Instr :=
  match (reqOp w).toNat with
  | 0x00 => .ok (.init (reqG1 w) (reqG2 w) (reqG3 w) (reqA w) (reqB w))
  | 0x01 => .ok .clear
  | 0x02 => .ok .home
  | 0x03 => .ok (.setCursor (reqA w) (reqB w))
  | 0x04 => .ok .display
  | 0x05 => .ok .noDisplay
  | 0x06 => .ok .cursor
  | 0x07 => .ok .noCursor
  | 0x08 => .ok .blink
  | 0x09 => .ok .noBlink
  | 0x0A => .ok .scrollLeft
  | 0x0B => .ok .scrollRight
  | 0x0C => .ok .shiftLeft
  | 0x0D => .ok .shiftRight
  | 0x0E => .ok .shiftInc
  | 0x0F => .ok .shiftDec
  | 0x10 => .ok (.createChar (reqA w) (reqB w) (reqG1 w) (reqG2 w) (reqG3 w) (reqG4 w) (reqG5 w)
      (reqG6 w) (reqG7 w))
  | 0x11 => .ok (.write (reqA w))
  | 0x12 => .ok (.command (reqA w))
  | _ => .error (.reservedOp (reqOp w))

/-- The ten fields laid out as a request word, `op` highest (R70). -/
def packReq (op a b g1 g2 g3 g4 g5 g6 g7 : Byte) : ReqWord :=
  op ++ a ++ b ++ g1 ++ g2 ++ g3 ++ g4 ++ g5 ++ g6 ++ g7

/-- Ten bytes, `op` first, as a request word (the order in which a request word is written, head of
`95_test_vectors.md`); any other number of bytes is no request (R73). -/
def wordOfBytes : List Byte → Except DecodeError ReqWord
  | [op, a, b, g1, g2, g3, g4, g5, g6, g7] => .ok (packReq op a b g1 g2 g3 g4 g5 g6 g7)
  | bs => .error (.wrongLength bs.length)

/-- Decoding of any byte string. -/
def decodeBytes (bs : List Byte) : Except DecodeError Instr :=
  match wordOfBytes bs with
  | .ok w => decode w
  | .error e => .error e

/-- The op code of an operation (R72). -/
def Instr.opcode : Instr → Byte
  | .init .. => 0x00
  | .clear => 0x01
  | .home => 0x02
  | .setCursor .. => 0x03
  | .display => 0x04
  | .noDisplay => 0x05
  | .cursor => 0x06
  | .noCursor => 0x07
  | .blink => 0x08
  | .noBlink => 0x09
  | .scrollLeft => 0x0A
  | .scrollRight => 0x0B
  | .shiftLeft => 0x0C
  | .shiftRight => 0x0D
  | .shiftInc => 0x0E
  | .shiftDec => 0x0F
  | .createChar .. => 0x10
  | .write _ => 0x11
  | .command _ => 0x12

/-- The request word of an operation, unused fields zero (R70 to R72; the zeros are log 20). -/
def encode (i : Instr) : ReqWord :=
  match i with
  | .init d c e lines font => packReq i.opcode lines font d c e 0 0 0 0
  | .setCursor col row => packReq i.opcode col row 0 0 0 0 0 0 0
  | .createChar location g0 g1 g2 g3 g4 g5 g6 g7 =>
      packReq i.opcode location g0 g1 g2 g3 g4 g5 g6 g7
  | .write byte => packReq i.opcode byte 0 0 0 0 0 0 0 0
  | .command byte => packReq i.opcode byte 0 0 0 0 0 0 0 0
  | .clear | .home | .display | .noDisplay | .cursor | .noCursor | .blink | .noBlink | .scrollLeft
  | .scrollRight | .shiftLeft | .shiftRight | .shiftInc | .shiftDec =>
      packReq i.opcode 0 0 0 0 0 0 0 0 0

/-- The bits of a request word that an operation uses; every other bit is ignored (R71). -/
def Instr.usedBits : Instr → ReqWord
  | .init .. => packReq 0xFF 0xFF 0xFF 0xFF 0xFF 0xFF 0 0 0 0
  | .setCursor .. => packReq 0xFF 0xFF 0xFF 0 0 0 0 0 0 0
  | .createChar .. => packReq 0xFF 0xFF 0xFF 0xFF 0xFF 0xFF 0xFF 0xFF 0xFF 0xFF
  | .write _ => packReq 0xFF 0xFF 0 0 0 0 0 0 0 0
  | .command _ => packReq 0xFF 0xFF 0 0 0 0 0 0 0 0
  | .clear | .home | .display | .noDisplay | .cursor | .noCursor | .blink | .noBlink | .scrollLeft
  | .scrollRight | .shiftLeft | .shiftRight | .shiftInc | .shiftDec =>
      packReq 0xFF 0 0 0 0 0 0 0 0 0

/-- The request word the host's numbering of an instruction's bits stands for: the row's one word has
80 bits, and every bit from `nbits` up is 0. Log 7. -/
def tableWord (nbits w : Nat) : ReqWord := BitVec.ofNat 80 (w % 2 ^ nbits)

/-- What the decoder reads from the instruction whose bits, numbered as the opcode table numbers
them, are `w`. -/
def decodeTableWord (nbits w : Nat) : Option Instr :=
  match decode (tableWord nbits w) with
  | .ok i => some i
  | .error _ => none

end Sys2Proof
end

