-- ==== Sys2Proof/Config.lean ====
section
/-! DEFINITION. What the spec leaves to the model as parameters, and the free values.
The parameter types stand here; their values stand in `Machine/Constants.lean`. -/

namespace Sys2Proof

/-- The named controller command and flag constants of R12. The spec marks their values as general
knowledge and asks for a configuration record (D18, U15). Log 5. -/
structure CommandTable where
  /-- `CMD_CLEAR` -/
  clear : Byte
  /-- `CMD_HOME` -/
  home : Byte
  /-- `CMD_ENTRYMODE` -/
  entryMode : Byte
  /-- `CMD_DISPCTRL` -/
  dispCtrl : Byte
  /-- `CMD_SHIFT` -/
  shift : Byte
  /-- `CMD_FUNCSET` -/
  funcSet : Byte
  /-- `CMD_SETCGRAM` -/
  setCgram : Byte
  /-- `CMD_SETDDRAM` -/
  setDdram : Byte
  /-- `EM_LEFT` -/
  emLeft : Byte
  /-- `EM_SHIFTINC` -/
  emShiftInc : Byte
  /-- `DC_DISPLAY` -/
  dcDisplay : Byte
  /-- `DC_CURSOR` -/
  dcCursor : Byte
  /-- `DC_BLINK` -/
  dcBlink : Byte
  /-- `SH_DISPLAY` -/
  shDisplay : Byte
  /-- `SH_RIGHT` -/
  shRight : Byte
  /-- `FS_8BIT` -/
  fs8Bit : Byte
  /-- `FS_2LINE` -/
  fs2Line : Byte
  /-- `FS_5x10` -/
  fs5x10 : Byte
  deriving DecidableEq, Repr

/-- The parameters of one block (R11, R12): "parameters of the model and not fields of it" (R38), so
they are arguments of the meanings and no part of `State`. -/
structure Config where
  /-- `TWO_WIRE_SENTINEL`, OPEN in the spec (D4): a model takes it as an argument. Log 4. -/
  twoWireSentinel : PinId
  /-- `T_NIBBLE_SETTLE_US`, 40 or 0 (D11, U14). Log 6. -/
  nibbleSettleUs : Nat
  /-- The table of R12. -/
  cmd : CommandTable
  deriving DecidableEq, Repr

/-- The nine registers whose value after reset the spec calls unspecified (R37, R201). -/
inductive UnspecReg where
  | pinData | pinClk | pinEn | twoWire | numLines | font | dctrl | emode | fset
  deriving DecidableEq, Repr

/-- The value register `r` holds after the `n`-th reset of a run: "unspecified", "a model must not
assume zero" (R37, R201, U2). A free value: it has no body, so no proof can learn it. Log 2
(DESIGN CHOICE). -/
opaque Config.unspecified (r : UnspecReg) (n : Nat) : Byte

end Sys2Proof
end

