-- ==== Sys2Proof/Machine/Constants.lean ====
section
/-! DEFINITION. The constants of R11 and R12 with the values the spec gives them. -/

namespace Sys2Proof

/-- `T_POWERUP_US` (R11, R104). -/
def Config.powerupUs : Nat := 50000
/-- `T_FS1_US` (R11, R105). -/
def Config.fs1Us : Nat := 4500
/-- `T_FS2_US` (R11, R105). -/
def Config.fs2Us : Nat := 150
/-- `T_FS3_US` (R11, R105): no event. -/
def Config.fs3Us : Nat := 0
/-- `T_PULSE_US` (R11, R126). -/
def Config.pulseUs : Nat := 1
/-- `T_SETTLE_US` (R11, R206). -/
def Config.settleUs : Nat := 40
/-- `T_LONG_US` (R11, R207). -/
def Config.longUs : Nat := 2000

/-- `FRAME_EN`, the enable-gate bit of a frame (R11, R75). -/
def Config.frameEn : Byte := 0x80
/-- `FRAME_RS`, the register-select bit of a frame (R11, R75). -/
def Config.frameRs : Byte := 0x04
/-- `FRAME_DATA_MASK`, the data-line bits of a frame (R11, R76). -/
def Config.frameDataMask : Byte := 0x78

/-- The column `value` of R12. PRESUMED: the spec marks these values as general knowledge (G1).
Log 5. -/
def CommandTable.hd44780 : CommandTable where
  clear := 0x01
  home := 0x02
  entryMode := 0x04
  dispCtrl := 0x08
  shift := 0x10
  funcSet := 0x20
  setCgram := 0x40
  setDdram := 0x80
  emLeft := 0x02
  emShiftInc := 0x01
  dcDisplay := 0x04
  dcCursor := 0x02
  dcBlink := 0x01
  shDisplay := 0x08
  shRight := 0x04
  fs8Bit := 0x10
  fs2Line := 0x08
  fs5x10 := 0x04

/-- The parameters of the block that `exec`, `step` and `core` run, whose fixed types leave no argument
for them: the sentinel of the spec's test bench (DESIGN CHOICE, log 4), the nibble settle of D11
(log 6) and the table of R12 (log 5). `Machine/Parameters.lean` has the block with any other. -/
def Config.block : Config where
  twoWireSentinel := 0xFF
  nibbleSettleUs := 40
  cmd := .hd44780

end Sys2Proof
end

