-- ==== Sys2Proof/Machine/State.lean ====
section
/-! DEFINITION. The state of the block (R20), the events it emits (R9), what the host can do to it
(R70, R200) and the state after reset (R37, R201). -/

namespace Sys2Proof.Machine

/-- The level of a pin (R9): `LOW` = 0, `HIGH` = 1. -/
inductive Level where
  | low | high
  deriving DecidableEq, Repr

/-- One call of a platform primitive (R9, R50 to R54). -/
inductive Event where
  /-- `PinMode(p)`: configure `p` as an output (R51). -/
  | pinMode (p : PinId)
  /-- `PinLevel(p, l)`: drive `p` to `l` (R52). -/
  | pinLevel (p : PinId) (l : Level)
  /-- `ShiftOut(dp, cp, b)`: serialize `b`, most significant bit first (R53). -/
  | shiftOut (dp cp : PinId) (b : Byte)
  /-- `Delay(n)`: wait at least `n` microseconds (R54). -/
  | delay (us : Nat)
  deriving DecidableEq, Repr

/-- `PHASE` (R30). -/
inductive Phase where
  | uninit | ready
  deriving DecidableEq, Repr

/-- `SEQ` (R31): idle between operations, or the operation in flight and how many of its steps
(`Machine/Sequencer.lean`) are done. "No architected width or encoding": log 1. -/
inductive Seq where
  | idle
  | running (i : Instr) (stepsDone : Nat)
  deriving DecidableEq, Repr

/-- Why a request was refused (R184): (a) before INIT, (b) a reserved op code. -/
inductive RefusedBecause where
  | uninitialized
  | reservedOp
  deriving DecidableEq, Repr

/-- Whether a completed request was performed or refused. The host cannot see it; the spec forbids
reading a refused request as a successful no-op (R184). Log 3. -/
inductive Verdict where
  | performed
  | refused (why : RefusedBecause)
  deriving DecidableEq, Repr

/-- One completion: the value on the completion port (R70, R74) and the model's mark. Log 19. -/
structure Completion where
  ret : Byte
  verdict : Verdict
  deriving DecidableEq, Repr

/-- What the host does next (R70, R200). Log 7. -/
inductive HostInput where
  /-- Present `REQ`; the operation is taken whole, from request to completion (D1, D27). -/
  | request (w : ReqWord)
  /-- Present `REQ`; the operation is taken step by step, so that a reset can land inside it
  (R202, and the finer grain of R113). -/
  | begin (w : ReqWord)
  /-- Nothing, for the time of one sequencer step. -/
  | wait
  /-- Assert and release reset (R200). -/
  | reset
  /-- Assert reset with a request on the port: reset wins (R185, R200). -/
  | resetWithRequest (w : ReqWord)
  deriving DecidableEq, Repr

/-- Why the machine stops. R180: "the complete list of exception causes is empty", so there is no
fault, and no step raises one. -/
inductive Fault where
  deriving DecidableEq, Repr

/-- A request without a meaning in this model. -/
inductive Refusal where
  /-- Raised by an arm of `exec` for an operation that is not modelled. No arm raises it: every
  operation has its meaning. Safe: the run stops. -/
  | notModelled (mnemonic : String)
  deriving DecidableEq, Repr

/-- The block. The first eleven fields are the registers of R20. -/
structure State where
  /-- `PIN_DATA` (R21) -/
  pinData : PinId
  /-- `PIN_CLK` (R22) -/
  pinClk : PinId
  /-- `PIN_EN` (R23) -/
  pinEn : PinId
  /-- `TWO_WIRE` (R24) -/
  twoWire : Bool
  /-- `NUMLINES` (R25), the count -/
  numLines : BitVec 2
  /-- `FONT` (R26), true for 5×10 -/
  font : Bool
  /-- `DCTRL` (R27) -/
  dctrl : Byte
  /-- `EMODE` (R28) -/
  emode : Byte
  /-- `FSET` (R29) -/
  fset : Byte
  /-- `PHASE` (R30) -/
  phase : Phase
  /-- `SEQ` (R31) -/
  seq : Seq
  /-- The host inputs still to come, oldest first (R70, R200). -/
  inputs : List HostInput
  /-- The events emitted so far, oldest first (R9). -/
  trace : List Event
  /-- The completions signalled so far, oldest first (R70). -/
  completions : List Completion
  /-- How many resets the run has seen; the model's own field, the index of the free values that
  stand for unspecified registers. Log 2. -/
  resets : Nat
  deriving DecidableEq, Repr

/-- `TWO_WIRE` takes one bit of its free value. -/
def unspecifiedBit (r : UnspecReg) (n : Nat) : Bool := (Config.unspecified r n).getLsbD 0

/-- `NUMLINES` takes two bits of its free value. -/
def unspecifiedCount (n : Nat) : BitVec 2 := (Config.unspecified .numLines n).setWidth 2

/-- The block right after reset (R37, R201): `UNINIT`, sequencer idle, empty trace, every other
register unspecified (log 2), no request pending. -/
def State.reset : State where
  pinData := Config.unspecified .pinData 0
  pinClk := Config.unspecified .pinClk 0
  pinEn := Config.unspecified .pinEn 0
  twoWire := unspecifiedBit .twoWire 0
  numLines := unspecifiedCount 0
  font := unspecifiedBit .font 0
  dctrl := Config.unspecified .dctrl 0
  emode := Config.unspecified .emode 0
  fset := Config.unspecified .fset 0
  phase := .uninit
  seq := .idle
  inputs := []
  trace := []
  completions := []
  resets := 0

end Sys2Proof.Machine
end

