-- ==== Sys2Proof/Machine/Flags.lean ====
section
/-! DEFINITION. The mode-bit computations. The block has no condition codes (R32); its bits are mode
bits commanded to the controller, changed by read-modify-write of a whole mask (R85, R160). -/

namespace Sys2Proof.Machine

/-- `M <- M | bit` (R85). -/
def setBits (m bit : Byte) : Byte := m ||| bit

/-- `M <- M & ~bit`, complement at 8 bits (R85). -/
def clearBits (m bit : Byte) : Byte := m &&& ~~~bit

/-- `compose(base, mask) = base | mask` (R81). -/
def compose (base mask : Byte) : Byte := base ||| mask

/-- The three flags of `DCTRL` (R27). -/
inductive DispFlag where
  | display | cursor | blink
  deriving DecidableEq, Repr

/-- The two flags of `EMODE` (R28). -/
inductive EntryFlag where
  | left | shiftInc
  deriving DecidableEq, Repr

/-- The constant of a display-control flag (R12, R27). -/
def DispFlag.bit (t : CommandTable) : DispFlag → Byte
  | .display => t.dcDisplay
  | .cursor => t.dcCursor
  | .blink => t.dcBlink

/-- The constant of an entry-mode flag (R12, R28). -/
def EntryFlag.bit (t : CommandTable) : EntryFlag → Byte
  | .left => t.emLeft
  | .shiftInc => t.emShiftInc

/-- Set or clear one bit of a mask (R85). -/
def updateBit (m bit : Byte) (on : Bool) : Byte := if on then setBits m bit else clearBits m bit

/-- `FSET` as INIT computes it; the `DL` bit stays clear (R84, R103). -/
def funcSetMask (t : CommandTable) (numLines : BitVec 2) (font : Bool) : Byte :=
  (if numLines = 2 then t.fs2Line else 0) ||| (if font then t.fs5x10 else 0)

end Sys2Proof.Machine
end

