-- ==== Sys2Proof/Machine/Operands.lean ====
section
/-! DEFINITION. Operand assembly: the frame encoder (R75 to R78), INIT's configuration decode (R84),
the address mapper (R61 to R63, R82, R83) and the controller bytes the block composes (R80). All
arithmetic is 8-bit unsigned (R14). -/

namespace Sys2Proof.Machine

/-- `rs`, 0 for a command, `FRAME_RS` for character data (R76). -/
def rsBit (isData : Bool) : Byte := if isData then Config.frameRs else 0

/-- The first frame of a byte: `rs | FRAME_EN | ((value >> 1) & 0x78)` (R76). -/
def upperFrame (value : Byte) (isData : Bool) : Byte :=
  rsBit isData ||| Config.frameEn ||| ((value >>> 1) &&& Config.frameDataMask)

/-- The second frame of a byte: `rs | FRAME_EN | ((value << 3) & 0x78)` (R76). -/
def lowerFrame (value : Byte) (isData : Bool) : Byte :=
  rsBit isData ||| Config.frameEn ||| ((value <<< 3) &&& Config.frameDataMask)

/-- The nibble-only frame: `FRAME_EN | ((value >> 1) & 0x78)` (R77). -/
def nibbleFrame (value : Byte) : Byte :=
  Config.frameEn ||| ((value >>> 1) &&& Config.frameDataMask)

/-- `NUMLINES = (lines > 1) ? 2 : 1` (R84). -/
def lineCount (lines : Byte) : BitVec 2 := if 1 < lines then 2 else 1

/-- `FONT = (font != 0) ? 1 : 0` (R84). -/
def fontFlag (font : Byte) : Bool := font != 0

/-- `TWO_WIRE = (enablePin = TWO_WIRE_SENTINEL)` (R84, R101). -/
def twoWireFlag (p : Config) (enablePin : PinId) : Bool := enablePin == p.twoWireSentinel

/-- `PIN_EN = TWO_WIRE ? dataPin : enablePin` (R84, R101). -/
def enablePinFor (p : Config) (dataPin enablePin : PinId) : PinId :=
  if twoWireFlag p enablePin then dataPin else enablePin

/-- The row clamp: `(row > NUMLINES) ? (NUMLINES - 1) : row`, a strict comparison with the line count
(R82, R143, C1). The clamped row has two bits because it never exceeds `NUMLINES`. Log 11, 12. -/
def clampRow (numLines : BitVec 2) (row : Byte) : BitVec 2 :=
  if numLines.setWidth 8 < row then numLines - 1 else row.setWidth 2

/-- The row-offset table `{0x00, 0x40, 0x14, 0x54}` (R61). -/
def rowOffset (row : BitVec 2) : Byte :=
  match row.toNat with
  | 0 => 0x00
  | 1 => 0x40
  | 2 => 0x14
  | _ => 0x54

/-- `addr = (col + ROW_OFFSET[r]) mod 256` (R82). -/
def ddramAddress (numLines : BitVec 2) (col row : Byte) : Byte :=
  col + rowOffset (clampRow numLines row)

/-- `(location & 7) << 3` (R83). -/
def cgramAddress (location : Byte) : Byte := (location &&& 7) <<< 3

/-- The controller bytes an operation sends: the rows of R80's table, and a byte as the host gave
it (R123, R124, R146). -/
inductive Source where
  | clear
  | home
  | entryMode
  | dispCtrl
  | scroll (right : Bool)
  /-- Function set, 8-bit: the handshake byte. -/
  | funcSet8
  /-- Function set, 4-bit select. -/
  | funcSet4
  | funcSetFinal
  | setCgram (location : Byte)
  | setDdram (col row : Byte)
  /-- Set DDRAM address 0, the end of CREATECHAR. -/
  | setDdramZero
  | raw (byte : Byte)
  deriving DecidableEq, Repr

/-- The byte a source stands for, from the masks of the state and the constants of the block
(R80 to R83). -/
def Source.value (p : Config) (src : Source) (s : State) : Byte :=
  match src with
  | .clear => p.cmd.clear
  | .home => p.cmd.home
  | .entryMode => compose p.cmd.entryMode s.emode
  | .dispCtrl => compose p.cmd.dispCtrl s.dctrl
  | .scroll right =>
      compose p.cmd.shift (p.cmd.shDisplay ||| if right then p.cmd.shRight else 0)
  | .funcSet8 => compose p.cmd.funcSet p.cmd.fs8Bit
  | .funcSet4 => p.cmd.funcSet
  | .funcSetFinal => compose p.cmd.funcSet s.fset
  | .setCgram location => compose p.cmd.setCgram (cgramAddress location)
  | .setDdram col row => compose p.cmd.setDdram (ddramAddress s.numLines col row)
  | .setDdramZero => compose p.cmd.setDdram 0
  | .raw byte => byte

end Sys2Proof.Machine
end

