-- ==== Sys2Proof/Machine/Ops.lean ====
section
/-! DEFINITION. The operations shared by the meanings: emitting an event (R9, R15), the internal
procedures `FrameTx`, `Send`, `SendNibble` (R120 to R122), register writes, completion and refusal
(R70, R74, R184), acceptance (R184) and reset (R200 to R202). The spec has no exception entry and no
return from one (R180, R186): the refusal is the block's only abnormal outcome. -/

namespace Sys2Proof.Machine

/-- `emit(e)`: append an event to the trace (R15). -/
def State.emit (e : Event) (s : State) : State := { s with trace := s.trace ++ [e] }

/-- One wait as one `Delay` event (D20); a constant of 0 is no event (`T_FS3_US`, R105; D11). -/
def State.wait (us : Nat) (s : State) : State := if us = 0 then s else s.emit (.delay us)

/-- Drive `PIN_EN` (R120). -/
def State.driveEnable (l : Level) (s : State) : State := s.emit (.pinLevel s.pinEn l)

/-- `ShiftOut(PIN_DATA, PIN_CLK, b)` (R120). -/
def State.shiftOut (b : Byte) (s : State) : State := s.emit (.shiftOut s.pinData s.pinClk b)

/-- Two-wire mode only: clear the shift register before the frame (R120, R209). -/
def State.preClear (s : State) : State := if s.twoWire then s.shiftOut 0x00 else s

/-- `FrameTx(f)` (R120). -/
def State.frameTx (f : Byte) (s : State) : State :=
  ((((s.preClear.driveEnable .low).shiftOut f).driveEnable .high).wait Config.pulseUs).driveEnable
    .low

/-- `Send(value, isData)` (R121). -/
def State.send (value : Byte) (isData : Bool) (s : State) : State :=
  ((s.frameTx (upperFrame value isData)).frameTx (lowerFrame value isData)).wait Config.settleUs

/-- `SendNibble(value)` (R122). -/
def State.sendNibble (p : Config) (value : Byte) (s : State) : State :=
  (s.frameTx (nibbleFrame value)).wait p.nibbleSettleUs

/-- `Send` of one of the block's own bytes, built from the registers as they are now. -/
def State.sendSource (p : Config) (src : Source) (isData : Bool) (s : State) : State :=
  s.send (src.value p s) isData

/-- INIT's configuration writes: pins and two-wire flag (R101), lines, font and function-set mask
(R103). -/
def State.configure (p : Config) (dataPin clockPin enablePin : PinId) (lines font : Byte)
    (s : State) : State :=
  { s with
    twoWire := twoWireFlag p enablePin
    pinData := dataPin
    pinClk := clockPin
    pinEn := enablePinFor p dataPin enablePin
    numLines := lineCount lines
    font := fontFlag font
    fset := funcSetMask p.cmd (lineCount lines) (fontFlag font) }

/-- Set or clear one bit of `DCTRL` (R160). -/
def State.updateDctrl (p : Config) (f : DispFlag) (on : Bool) (s : State) : State :=
  { s with dctrl := updateBit s.dctrl (f.bit p.cmd) on }

/-- Set or clear one bit of `EMODE` (R160). -/
def State.updateEmode (p : Config) (f : EntryFlag) (on : Bool) (s : State) : State :=
  { s with emode := updateBit s.emode (f.bit p.cmd) on }

/-- `DCTRL <- DC_DISPLAY` (R108). -/
def State.initDctrl (p : Config) (s : State) : State := { s with dctrl := p.cmd.dcDisplay }

/-- `EMODE <- EM_LEFT` (R110). -/
def State.initEmode (p : Config) (s : State) : State := { s with emode := p.cmd.emLeft }

/-- `PHASE <- READY` (R112). -/
def State.becomeReady (s : State) : State := { s with phase := .ready }

/-- Completion of a performed request: `ret` on the completion port, `SEQ` idle again (R70, R31). -/
def State.complete (ret : Byte) (s : State) : State :=
  { s with completions := s.completions ++ [⟨ret, .performed⟩], seq := .idle }

/-- A refused request: no event, no register change, completion at once with `ret = 0` (R184).
Log 3. -/
def State.refuse (why : RefusedBecause) (s : State) : State :=
  { s with completions := s.completions ++ [⟨0, .refused why⟩] }

/-- Is operation `i` accepted in this phase? INIT in both, every other one in `READY` only (R184). -/
def accepts (phase : Phase) (i : Instr) : Bool :=
  match phase with
  | .ready => true
  | .uninit => i.isInit

/-- Perform an operation that is accepted in `READY` only, and complete with `ret`; refuse it in
`UNINIT` (R184). -/
def ifReady (s : State) (ret : Byte) (body : State → State) :
    Host.Outcome State Fault Refusal :=
  .next (match s.phase with
    | .ready => (body s).complete ret
    | .uninit => s.refuse .uninitialized)

/-- Reset: `UNINIT`, sequencer idle, the other registers unspecified; nothing is emitted and nothing
completes, the events already emitted remain (R200 to R202). Log 2, 8. -/
def State.applyReset (s : State) : State :=
  { s with
    pinData := Config.unspecified .pinData (s.resets + 1)
    pinClk := Config.unspecified .pinClk (s.resets + 1)
    pinEn := Config.unspecified .pinEn (s.resets + 1)
    twoWire := unspecifiedBit .twoWire (s.resets + 1)
    numLines := unspecifiedCount (s.resets + 1)
    font := unspecifiedBit .font (s.resets + 1)
    dctrl := Config.unspecified .dctrl (s.resets + 1)
    emode := Config.unspecified .emode (s.resets + 1)
    fset := Config.unspecified .fset (s.resets + 1)
    phase := .uninit
    seq := .idle
    resets := s.resets + 1 }

end Sys2Proof.Machine
end

