-- ==== Sys2Proof/Machine/DisplayCommands.lean ====
section
/-! DEFINITION. Display commands and the address mapper: CLEAR, HOME, SETCURSOR, SCROLLLEFT,
SCROLLRIGHT, CREATECHAR (`42_display_commands.md`). None of them writes a register. -/

namespace Sys2Proof.Machine

/-- CLEAR (R140): the command and the long wait. -/
def execClear (s : State) (p : Config := .block) :
    Host.Outcome State Fault Refusal :=
  ifReady s 0 fun s => (s.sendSource p .clear false).wait Config.longUs

/-- HOME (R141): the command and the long wait. -/
def execHome (s : State) (p : Config := .block) :
    Host.Outcome State Fault Refusal :=
  ifReady s 0 fun s => (s.sendSource p .home false).wait Config.longUs

/-- SETCURSOR (R142). -/
def execSetCursor (col row : Byte) (s : State) (p : Config := .block) :
    Host.Outcome State Fault Refusal :=
  ifReady s 0 fun s => s.sendSource p (.setDdram col row) false

/-- SCROLLLEFT (R144). -/
def execScrollLeft (s : State) (p : Config := .block) :
    Host.Outcome State Fault Refusal :=
  ifReady s 0 fun s => s.sendSource p (.scroll false) false

/-- SCROLLRIGHT (R145). -/
def execScrollRight (s : State) (p : Config := .block) :
    Host.Outcome State Fault Refusal :=
  ifReady s 0 fun s => s.sendSource p (.scroll true) false

/-- Send a list of glyph rows as data bytes, in index order (R146). -/
def State.sendRows (p : Config) (rows : List Byte) (s : State) : State :=
  match rows with
  | [] => s
  | row :: rest => (s.sendSource p (.raw row) true).sendRows p rest

/-- CREATECHAR (R146): slot address, the eight rows unmasked, DDRAM address 0. -/
def execCreateChar (location g0 g1 g2 g3 g4 g5 g6 g7 : Byte) (s : State)
    (p : Config := .block) : Host.Outcome State Fault Refusal :=
  ifReady s 0 fun s =>
    ((s.sendSource p (.setCgram location) false).sendRows p [g0, g1, g2, g3, g4, g5, g6, g7]
      ).sendSource p .setDdramZero false

end Sys2Proof.Machine
end

