-- ==== Sys2Proof/Machine/Framing.lean ====
section
/-! DEFINITION. The operations that are a bare send: WRITE and COMMAND (`41_framing_strobe.md`). -/

namespace Sys2Proof.Machine

/-- WRITE (R123): one character-data byte, `ret = 1`. -/
def execWrite (byte : Byte) (s : State) (p : Config := .block) :
    Host.Outcome State Fault Refusal :=
  ifReady s 1 fun s => s.sendSource p (.raw byte) true

/-- COMMAND (R124): one raw command byte verbatim; no mask is updated and no long wait is added. -/
def execCommand (byte : Byte) (s : State) (p : Config := .block) :
    Host.Outcome State Fault Refusal :=
  ifReady s 0 fun s => s.sendSource p (.raw byte) false

end Sys2Proof.Machine
end

