-- ==== Sys2Proof/Machine/InitSequence.lean ====
section
/-! DEFINITION. The initialization FSM: INIT (`40_init_sequencer.md`). -/

namespace Sys2Proof.Machine

/-- "Configures all involved pins as outputs": data, clock, enable, after the aliasing (R102). -/
def State.pinModes (s : State) : State :=
  ((s.emit (.pinMode s.pinData)).emit (.pinMode s.pinClk)).emit (.pinMode s.pinEn)

/-- The power-up wait and the handshake: three 8-bit function sets by the nibble-only path with their
waits, then the 4-bit select (R104 to R106). -/
def State.handshake (p : Config) (s : State) : State :=
  let s := s.wait Config.powerupUs
  let s := (s.sendNibble p (Source.funcSet8.value p s)).wait Config.fs1Us
  let s := (s.sendNibble p (Source.funcSet8.value p s)).wait Config.fs2Us
  let s := (s.sendNibble p (Source.funcSet8.value p s)).wait Config.fs3Us
  s.sendNibble p (Source.funcSet4.value p s)

/-- The full two-frame commands that end the sequence: function set, display on, clear, entry mode,
home (R107 to R111). -/
def State.displaySetup (p : Config) (s : State) : State :=
  let s := s.sendSource p .funcSetFinal false
  let s := (s.initDctrl p).sendSource p .dispCtrl false
  let s := (s.sendSource p .clear false).wait Config.longUs
  let s := (s.initEmode p).sendSource p .entryMode false
  (s.sendSource p .home false).wait Config.longUs

/-- INIT (R100): accepted in `UNINIT` and in `READY` (R116); it always ends in `READY` (R114). -/
def execInit (dataPin clockPin enablePin : PinId) (lines font : Byte) (s : State)
    (p : Config := .block) : Host.Outcome State Fault Refusal :=
  .next (((((s.configure p dataPin clockPin enablePin lines font).pinModes.handshake p).displaySetup
    p).becomeReady).complete 0)

end Sys2Proof.Machine
end

