-- ==== Sys2Proof/Machine/ModeRegisters.lean ====
section
/-! DEFINITION. The display-command composer (`43_mode_registers.md`): one bit of a mask is set or
cleared, then the whole command byte is sent from the new value (R160). -/

namespace Sys2Proof.Machine

/-- The shape of the six display-control operations (R160). -/
def displayMode (p : Config) (f : DispFlag) (on : Bool) (s : State) : State :=
  (s.updateDctrl p f on).sendSource p .dispCtrl false

/-- The shape of the four entry-mode operations (R160). -/
def entryMode (p : Config) (f : EntryFlag) (on : Bool) (s : State) : State :=
  (s.updateEmode p f on).sendSource p .entryMode false

/-- DISPLAY (R161). -/
def execDisplay (s : State) (p : Config := .block) :
    Host.Outcome State Fault Refusal :=
  ifReady s 0 (displayMode p .display true)

/-- NODISPLAY (R162). -/
def execNoDisplay (s : State) (p : Config := .block) :
    Host.Outcome State Fault Refusal :=
  ifReady s 0 (displayMode p .display false)

/-- CURSOR (R163). -/
def execCursor (s : State) (p : Config := .block) :
    Host.Outcome State Fault Refusal :=
  ifReady s 0 (displayMode p .cursor true)

/-- NOCURSOR (R164). -/
def execNoCursor (s : State) (p : Config := .block) :
    Host.Outcome State Fault Refusal :=
  ifReady s 0 (displayMode p .cursor false)

/-- BLINK (R165). -/
def execBlink (s : State) (p : Config := .block) :
    Host.Outcome State Fault Refusal :=
  ifReady s 0 (displayMode p .blink true)

/-- NOBLINK (R166). -/
def execNoBlink (s : State) (p : Config := .block) :
    Host.Outcome State Fault Refusal :=
  ifReady s 0 (displayMode p .blink false)

/-- SHIFTLEFT (R167): the "set" of the entry-direction pair. -/
def execShiftLeft (s : State) (p : Config := .block) :
    Host.Outcome State Fault Refusal :=
  ifReady s 0 (entryMode p .left true)

/-- SHIFTRIGHT (R168). -/
def execShiftRight (s : State) (p : Config := .block) :
    Host.Outcome State Fault Refusal :=
  ifReady s 0 (entryMode p .left false)

/-- SHIFTINC (R169). -/
def execShiftInc (s : State) (p : Config := .block) :
    Host.Outcome State Fault Refusal :=
  ifReady s 0 (entryMode p .shiftInc true)

/-- SHIFTDEC (R170). -/
def execShiftDec (s : State) (p : Config := .block) :
    Host.Outcome State Fault Refusal :=
  ifReady s 0 (entryMode p .shiftInc false)

end Sys2Proof.Machine
end

