-- ==== Sys2Proof/Machine/Dispatch.lean ====
section
/-! DEFINITION. One arm per operation (R72). -/

namespace Sys2Proof.Machine

def exec (i : Instr) (s : State) : Host.Outcome State Fault Refusal :=
  match i with
  | .init d c e lines font => Sys2Proof.Machine.execInit d c e lines font s
  | .clear => Sys2Proof.Machine.execClear s
  | .home => Sys2Proof.Machine.execHome s
  | .setCursor col row => Sys2Proof.Machine.execSetCursor col row s
  | .display => Sys2Proof.Machine.execDisplay s
  | .noDisplay => Sys2Proof.Machine.execNoDisplay s
  | .cursor => Sys2Proof.Machine.execCursor s
  | .noCursor => Sys2Proof.Machine.execNoCursor s
  | .blink => Sys2Proof.Machine.execBlink s
  | .noBlink => Sys2Proof.Machine.execNoBlink s
  | .scrollLeft => Sys2Proof.Machine.execScrollLeft s
  | .scrollRight => Sys2Proof.Machine.execScrollRight s
  | .shiftLeft => Sys2Proof.Machine.execShiftLeft s
  | .shiftRight => Sys2Proof.Machine.execShiftRight s
  | .shiftInc => Sys2Proof.Machine.execShiftInc s
  | .shiftDec => Sys2Proof.Machine.execShiftDec s
  | .createChar location g0 g1 g2 g3 g4 g5 g6 g7 => Sys2Proof.Machine.execCreateChar location g0 g1 g2 g3 g4 g5 g6 g7 s
  | .write byte => Sys2Proof.Machine.execWrite byte s
  | .command byte => Sys2Proof.Machine.execCommand byte s

end Sys2Proof.Machine
end

