-- ==== Sys2Proof/Machine/Sequencer.lean ====
section
/-! DEFINITION. The sequencer position `SEQ` (R31) and the finer grain the spec offers beside the
atomic operations (R113, D27): every operation as a finite list of sequencer steps, at most one event
each, and one tick of the sequencer. The first branch of R31, the two-wire test, is a step of its own;
the row clamp is inside the address of SETCURSOR; the loop of CREATECHAR is written out. Log 10. -/

namespace Sys2Proof.Machine

/-- The three pins of the link (R102). -/
inductive PinRole where
  | data | clock | enable
  deriving DecidableEq, Repr

/-- The pin register of a role (R21 to R23). -/
def PinRole.pin (s : State) : PinRole → PinId
  | .data => s.pinData
  | .clock => s.pinClk
  | .enable => s.pinEn

/-- Which frame of a byte a step shifts out (R76, R77). -/
inductive FramePart where
  | upper (isData : Bool)
  | lower (isData : Bool)
  | nibble
  deriving DecidableEq, Repr

/-- The frame of a byte (R76, R77). -/
def FramePart.frame (value : Byte) : FramePart → Byte
  | .upper isData => upperFrame value isData
  | .lower isData => lowerFrame value isData
  | .nibble => nibbleFrame value

/-- One step of the sequencer. -/
inductive Micro where
  | configure (dataPin clockPin enablePin : PinId) (lines font : Byte)
  | pinMode (role : PinRole)
  | preClear
  | driveEnable (l : Level)
  | shiftFrame (src : Source) (part : FramePart)
  | wait (us : Nat)
  | nibbleSettle
  | updateDctrl (f : DispFlag) (on : Bool)
  | updateEmode (f : EntryFlag) (on : Bool)
  | initDctrl
  | initEmode
  | becomeReady
  | complete (ret : Byte)
  deriving DecidableEq, Repr

/-- What a sequencer step does. -/
def Micro.perform (p : Config) (m : Micro) (s : State) : State :=
  match m with
  | .configure d c e lines font => s.configure p d c e lines font
  | .pinMode role => s.emit (.pinMode (role.pin s))
  | .preClear => s.preClear
  | .driveEnable l => s.driveEnable l
  | .shiftFrame src part => s.shiftOut (part.frame (src.value p s))
  | .wait us => s.wait us
  | .nibbleSettle => s.wait p.nibbleSettleUs
  | .updateDctrl f on => s.updateDctrl p f on
  | .updateEmode f on => s.updateEmode p f on
  | .initDctrl => s.initDctrl p
  | .initEmode => s.initEmode p
  | .becomeReady => s.becomeReady
  | .complete ret => s.complete ret

/-- The steps of `FrameTx` (R120). -/
def microFrame (src : Source) (part : FramePart) : List Micro :=
  [.preClear, .driveEnable .low, .shiftFrame src part, .driveEnable .high, .wait Config.pulseUs,
    .driveEnable .low]

/-- The steps of `Send` (R121). -/
def microSend (src : Source) (isData : Bool) : List Micro :=
  microFrame src (.upper isData) ++ microFrame src (.lower isData) ++ [.wait Config.settleUs]

/-- The steps of `SendNibble` (R122). -/
def microNibble (src : Source) : List Micro :=
  microFrame src .nibble ++ [.nibbleSettle]

/-- The states of the initialization FSM, `I0` to `I14` (R113). -/
inductive InitState where
  | config | powerWait | fs8First | wait1 | fs8Second | wait2 | fs8Third | fs4 | fsFinal | dispOn
  | clear | clearWait | entry | home | homeWait
  deriving DecidableEq, Repr

/-- The states in the order the machine passes through them (R113). -/
def InitState.all : List InitState :=
  [.config, .powerWait, .fs8First, .wait1, .fs8Second, .wait2, .fs8Third, .fs4, .fsFinal, .dispOn,
    .clear, .clearWait, .entry, .home, .homeWait]

/-- The action of one FSM state (R113). -/
def InitState.steps (d c e : PinId) (lines font : Byte) : InitState → List Micro
  | .config => [.configure d c e lines font, .pinMode .data, .pinMode .clock, .pinMode .enable]
  | .powerWait => [.wait Config.powerupUs]
  | .fs8First => microNibble .funcSet8
  | .wait1 => [.wait Config.fs1Us]
  | .fs8Second => microNibble .funcSet8
  | .wait2 => [.wait Config.fs2Us]
  | .fs8Third => microNibble .funcSet8 ++ [.wait Config.fs3Us]
  | .fs4 => microNibble .funcSet4
  | .fsFinal => microSend .funcSetFinal false
  | .dispOn => .initDctrl :: microSend .dispCtrl false
  | .clear => microSend .clear false
  | .clearWait => [.wait Config.longUs]
  | .entry => .initEmode :: microSend .entryMode false
  | .home => microSend .home false
  | .homeWait => [.wait Config.longUs]

/-- The sequencer steps of every operation, its completion last. -/
def microcode : Instr → List Micro
  | .init d c e lines font =>
      InitState.all.flatMap (InitState.steps d c e lines font) ++ [.becomeReady, .complete 0]
  | .clear => microSend .clear false ++ [.wait Config.longUs, .complete 0]
  | .home => microSend .home false ++ [.wait Config.longUs, .complete 0]
  | .setCursor col row => microSend (.setDdram col row) false ++ [.complete 0]
  | .display => .updateDctrl .display true :: microSend .dispCtrl false ++ [.complete 0]
  | .noDisplay => .updateDctrl .display false :: microSend .dispCtrl false ++ [.complete 0]
  | .cursor => .updateDctrl .cursor true :: microSend .dispCtrl false ++ [.complete 0]
  | .noCursor => .updateDctrl .cursor false :: microSend .dispCtrl false ++ [.complete 0]
  | .blink => .updateDctrl .blink true :: microSend .dispCtrl false ++ [.complete 0]
  | .noBlink => .updateDctrl .blink false :: microSend .dispCtrl false ++ [.complete 0]
  | .scrollLeft => microSend (.scroll false) false ++ [.complete 0]
  | .scrollRight => microSend (.scroll true) false ++ [.complete 0]
  | .shiftLeft => .updateEmode .left true :: microSend .entryMode false ++ [.complete 0]
  | .shiftRight => .updateEmode .left false :: microSend .entryMode false ++ [.complete 0]
  | .shiftInc => .updateEmode .shiftInc true :: microSend .entryMode false ++ [.complete 0]
  | .shiftDec => .updateEmode .shiftInc false :: microSend .entryMode false ++ [.complete 0]
  | .createChar location g0 g1 g2 g3 g4 g5 g6 g7 =>
      microSend (.setCgram location) false ++
        [g0, g1, g2, g3, g4, g5, g6, g7].flatMap (fun g => microSend (.raw g) true) ++
        microSend .setDdramZero false ++ [.complete 0]
  | .write byte => microSend (.raw byte) true ++ [.complete 1]
  | .command byte => microSend (.raw byte) false ++ [.complete 0]

/-- One tick: the next step of the operation in flight. A position past the end of the operation,
which no run reaches, goes idle (log 18). -/
def State.tick (s : State) (p : Config := .block) : State :=
  match s.seq with
  | .idle => s
  | .running i n =>
    match (microcode i)[n]? with
    | some m => m.perform p { s with seq := .running i (n + 1) }
    | none => { s with seq := .idle }

/-- `k` ticks. -/
def State.ticks (k : Nat) (s : State) (p : Config := .block) : State :=
  match k with
  | 0 => s
  | k + 1 => (s.tick p).ticks k p

end Sys2Proof.Machine
end

