-- ==== Sys2Proof/Machine/RequestPort.lean ====
section
/-! DEFINITION. The request port and the reset input (R70, R73, R184, R185, R200): what one host
input does. -/

namespace Sys2Proof.Machine

/-- The performing of one operation at a state: `exec`, or the block with other parameters. -/
abbrev Runner : Type := Instr → State → Host.Outcome State Fault Refusal

/-- A request word taken whole: the operation it names is performed, a reserved op code is refused
(R72, R73). -/
def serve (run : Runner) (w : ReqWord) (s : State) : Host.Outcome State Fault Refusal :=
  match decode w with
  | .ok i => run i s
  | .error _ => .next (s.refuse .reservedOp)

/-- A request word taken step by step: an accepted operation stands at its first step, any other
request is refused at once (R70, R73, R184). Log 1. -/
def beginRequest (w : ReqWord) (s : State) : State :=
  match decode w with
  | .ok i => if accepts s.phase i then { s with seq := .running i 0 } else s.refuse .uninitialized
  | .error _ => s.refuse .reservedOp

/-- A step with the sequencer idle: the next host input, or nothing while none is pending
("the block idles until a request arrives", R201; log 17). -/
def stepIdle (run : Runner) (s : State) : Host.Outcome State Fault Refusal :=
  match s.inputs with
  | [] => .next s
  | .request w :: rest => serve run w { s with inputs := rest }
  | .begin w :: rest => .next (beginRequest w { s with inputs := rest })
  | .wait :: rest => .next { s with inputs := rest }
  | .reset :: rest => .next { s with inputs := rest }.applyReset
  | .resetWithRequest _ :: rest => .next { s with inputs := rest }.applyReset

/-- A step with an operation in flight: reset abandons it (R202), otherwise the sequencer advances;
the port is not ready, so a request waits (R70, D21). -/
def stepRunning (s : State) (p : Config := .block) : State :=
  match s.inputs with
  | .reset :: rest => { s with inputs := rest }.applyReset
  | .resetWithRequest _ :: rest => { s with inputs := rest }.applyReset
  | .wait :: rest => { s with inputs := rest }.tick p
  | .request _ :: _ => s.tick p
  | .begin _ :: _ => s.tick p
  | [] => s.tick p

end Sys2Proof.Machine
end

