-- ==== Sys2Proof/Machine/Step.lean ====
section
/-! DEFINITION. One step of the machine, and the placing of a request where the next step takes it. -/

namespace Sys2Proof.Machine

/-- One step: with the sequencer idle the next host input, with an operation in flight its next
sequencer step (R8, R31, R70). -/
def step (s : State) : Host.Outcome State Fault Refusal :=
  match s.seq with
  | .idle => stepIdle exec s
  | .running _ _ => .next (stepRunning s)

/-- `s` with the request whose bits are `w` first on the request port and the port ready, so that the
next step takes exactly it. Log 7. -/
def State.withFetchWord (s : State) (nbits w : Nat) : State :=
  { s with inputs := .request (tableWord nbits w) :: s.inputs, seq := .idle }

end Sys2Proof.Machine
end

