-- ==== Sys2Proof/Machine/Trace.lean ====
section
/-! DEFINITION. The events of each procedure as a list written out (the traces of `95_test_vectors.md`
with the pins and masks of a state in the place of its letters). The meanings do not use them:
statements and lemmas compare the meanings with them. -/

namespace Sys2Proof.Machine

/-- The event of a wait; a wait of 0 is none (R105, D11). -/
def waitEvents (us : Nat) : List Event := if us = 0 then [] else [.delay us]

/-- The five events of a frame, six in two-wire mode (R120, V10, V11). -/
def State.frameEvents (s : State) (f : Byte) : List Event :=
  (if s.twoWire then [.shiftOut s.pinData s.pinClk 0x00] else []) ++
    [.pinLevel s.pinEn .low, .shiftOut s.pinData s.pinClk f, .pinLevel s.pinEn .high, .delay 1,
      .pinLevel s.pinEn .low]

/-- The events of a full send: upper frame, lower frame, settle (R121, V12, V13). -/
def State.sendEvents (s : State) (value : Byte) (isData : Bool) : List Event :=
  s.frameEvents (upperFrame value isData) ++ s.frameEvents (lowerFrame value isData) ++ [.delay 40]

/-- The events of a nibble-only send (R122, V17). -/
def State.nibbleEvents (p : Config) (s : State) (value : Byte) : List Event :=
  s.frameEvents (nibbleFrame value) ++ waitEvents p.nibbleSettleUs

/-- The events of a list of data bytes (R146). -/
def State.rowsEvents (s : State) (rows : List Byte) : List Event :=
  rows.flatMap fun row => s.sendEvents row true

/-- The events of CREATECHAR (R146, V33). -/
def State.glyphEvents (p : Config) (s : State) (location : Byte) (rows : List Byte) : List Event :=
  s.sendEvents (p.cmd.setCgram ||| ((location &&& 7) <<< 3)) false ++ s.rowsEvents rows ++
    s.sendEvents (p.cmd.setDdram ||| 0) false

/-- The events of INIT, for a state whose configuration registers INIT has written (R100, V20). -/
def State.initEvents (p : Config) (s : State) : List Event :=
  [.pinMode s.pinData, .pinMode s.pinClk, .pinMode s.pinEn, .delay 50000] ++
    s.nibbleEvents p (p.cmd.funcSet ||| p.cmd.fs8Bit) ++ [.delay 4500] ++
    s.nibbleEvents p (p.cmd.funcSet ||| p.cmd.fs8Bit) ++ [.delay 150] ++
    s.nibbleEvents p (p.cmd.funcSet ||| p.cmd.fs8Bit) ++
    s.nibbleEvents p p.cmd.funcSet ++
    s.sendEvents (p.cmd.funcSet ||| s.fset) false ++
    s.sendEvents (p.cmd.dispCtrl ||| p.cmd.dcDisplay) false ++
    s.sendEvents p.cmd.clear false ++ [.delay 2000] ++
    s.sendEvents (p.cmd.entryMode ||| p.cmd.emLeft) false ++
    s.sendEvents p.cmd.home false ++ [.delay 2000]

end Sys2Proof.Machine
end

