-- ==== Sys2Proof/Machine/Observer.lean ====
section
/-! DEFINITION. What a trace means to a reader outside the block: measures of a trace (R215), the
conformance relation (R10), and the reading of a trace at the shift register and the controller
(R57 to R59). None of it is state of the block (R38). Log 13, 22. -/

namespace Sys2Proof.Machine

/-- The total requested delay (R215). -/
def totalDelay : List Event → Nat
  | [] => 0
  | .delay us :: es => us + totalDelay es
  | .pinMode _ :: es => totalDelay es
  | .pinLevel _ _ :: es => totalDelay es
  | .shiftOut _ _ _ :: es => totalDelay es

/-- The bytes shifted out, in order (the `SO` bytes of `95_test_vectors.md`). -/
def shiftedBytes : List Event → List Byte
  | [] => []
  | .shiftOut _ _ b :: es => b :: shiftedBytes es
  | .delay _ :: es => shiftedBytes es
  | .pinMode _ :: es => shiftedBytes es
  | .pinLevel _ _ :: es => shiftedBytes es

/-- The total delay before the first other event, and every other event with the total delay that
follows it (R10). -/
def segments : List Event → Nat × List (Event × Nat)
  | [] => (0, [])
  | .delay us :: es => (us + (segments es).1, (segments es).2)
  | .pinMode p :: es => (0, (.pinMode p, (segments es).1) :: (segments es).2)
  | .pinLevel p l :: es => (0, (.pinLevel p l, (segments es).1) :: (segments es).2)
  | .shiftOut dp cp b :: es => (0, (.shiftOut dp cp b, (segments es).1) :: (segments es).2)

/-- Same events in the same order, each gap at least as long. -/
def segmentsConform : List (Event × Nat) → List (Event × Nat) → Bool
  | [], [] => true
  | (e, n) :: es, (e', n') :: es' => e == e' && decide (n' ≤ n) && segmentsConform es es'
  | [], _ :: _ => false
  | _ :: _, [] => false

/-- "An implementation conforms to a trace `T`" (R10); the wait before the first other event is not
compared (log 22). -/
def conforms (implementation spec : List Event) : Bool :=
  segmentsConform (segments implementation).2 (segments spec).2

/-- The nibble a frame presents on D7 to D4 (R58). -/
def frameNibble (f : Byte) : BitVec 4 := f.extractLsb' 3 4

/-- The register-select a frame presents (R58). -/
def frameIsData (f : Byte) : Bool := f.getLsbD 2

/-- The enable-gate bit of a frame (R75). -/
def frameGate (f : Byte) : Bool := f.getLsbD 7

/-- A controller byte as it arrives: its value and whether it is character data (R59). -/
structure Sent where
  value : Byte
  isData : Bool
  deriving DecidableEq, Repr

/-- The controller's interface (R59, R210): 8-bit, or 4-bit waiting for the high nibble, or 4-bit
waiting for the low nibble after the frame `upper`. -/
inductive Interface where
  | eightBit
  | fourHigh
  | fourLow (upper : Byte)
  deriving DecidableEq, Repr

/-- Is `b` the command whose base constant is `base`, that is, is `base` its highest set bit?
PRESUMED: the controller's own reading of a command (G1). Log 13. -/
def isCommandOf (base b : Byte) : Bool := (b &&& ~~~(base - 1)) == base

/-- A reader of the trace outside the block (R57 to R59). -/
structure Reader where
  /-- The content of the shift register, `SR` (R57). -/
  sr : Byte
  /-- The enable line was raised and nothing but waiting came since (R58). -/
  raised : Bool
  /-- The frame of every strobe so far (R58). -/
  strobes : List Byte
  iface : Interface
  /-- The bytes the controller has taken so far (R59). -/
  taken : List Sent
  deriving DecidableEq, Repr

/-- The interface after a byte: a function-set command selects the width (R59, R210), anything else
leaves it at `stay`. PRESUMED (G4, G7). Log 13. -/
def Interface.afterByte (t : CommandTable) (b : Sent) (stay : Interface) : Interface :=
  if !b.isData && isCommandOf t.funcSet b.value then
    if b.value &&& t.fs8Bit == 0 then .fourHigh else .eightBit
  else stay

/-- A byte arrives. -/
def Reader.take (t : CommandTable) (b : Sent) (stay : Interface) (r : Reader) : Reader :=
  { r with taken := r.taken ++ [b], iface := Interface.afterByte t b stay }

/-- A strobe presents the frame in the shift register (R58): in 8-bit mode it is one whole command
whose upper four bits are the nibble, in 4-bit mode two strobes make a byte (R59). `mixed` says what
a byte is whose two register-selects differ, which the spec does not say. PRESUMED, log 13: in 8-bit
mode the low four bits are 0, and a strobe with `SR[2] = 1` there, of which R59 does not speak, is
character data. -/
def Reader.strobe (t : CommandTable) (mixed : Bool) (r : Reader) : Reader :=
  let seen := { r with strobes := r.strobes ++ [r.sr] }
  match r.iface with
  | .eightBit => seen.take t ⟨frameNibble r.sr ++ 0#4, frameIsData r.sr⟩ .eightBit
  | .fourHigh => { seen with iface := .fourLow r.sr }
  | .fourLow upper =>
      seen.take t ⟨frameNibble upper ++ frameNibble r.sr,
        if frameIsData upper == frameIsData r.sr then frameIsData r.sr else mixed⟩ .fourHigh

/-- One event of the trace, for a block whose enable pin is `en` (R57, R58). -/
def Reader.event (t : CommandTable) (mixed : Bool) (en : PinId) (r : Reader) : Event → Reader
  | .shiftOut _ _ b => { r with sr := b, raised := false }
  | .delay _ => r
  | .pinMode _ => { r with raised := false }
  | .pinLevel p .high => { r with raised := p == en }
  | .pinLevel p .low =>
      if p == en && r.raised then { r.strobe t mixed with raised := false }
      else { r with raised := false }

/-- A whole trace. -/
def Reader.read (t : CommandTable) (mixed : Bool) (en : PinId) (r : Reader) (es : List Event) :
    Reader :=
  es.foldl (Reader.event t mixed en) r

/-- The last command taken whose base constant is `base`. -/
def lastCommand (base : Byte) (taken : List Sent) : Option Byte :=
  ((taken.filter fun b => !b.isData && isCommandOf base b.value).getLast?).map Sent.value

/-- Is the byte a display-control, entry-mode or function-set command (R33, R212)? -/
def isModeCommand (t : CommandTable) (b : Byte) : Bool :=
  isCommandOf t.dispCtrl b || isCommandOf t.entryMode b || isCommandOf t.funcSet b

end Sys2Proof.Machine
end

