-- ==== Sys2Proof/Machine/Parameters.lean ====
section
/-! DEFINITION. The block with any parameters (R11, R12, R38): the meanings take them as an argument;
`exec`, `step` and `core`, whose types are fixed, are the member `Config.block` of this family. -/

namespace Sys2Proof.Machine

/-- What an operation does in the block with parameters `p`. -/
def execWith (p : Config) (i : Instr) (s : State) : Host.Outcome State Fault Refusal :=
  match i with
  | .init d c e lines font => execInit d c e lines font s p
  | .clear => execClear s p
  | .home => execHome s p
  | .setCursor col row => execSetCursor col row s p
  | .display => execDisplay s p
  | .noDisplay => execNoDisplay s p
  | .cursor => execCursor s p
  | .noCursor => execNoCursor s p
  | .blink => execBlink s p
  | .noBlink => execNoBlink s p
  | .scrollLeft => execScrollLeft s p
  | .scrollRight => execScrollRight s p
  | .shiftLeft => execShiftLeft s p
  | .shiftRight => execShiftRight s p
  | .shiftInc => execShiftInc s p
  | .shiftDec => execShiftDec s p
  | .createChar location g0 g1 g2 g3 g4 g5 g6 g7 =>
      execCreateChar location g0 g1 g2 g3 g4 g5 g6 g7 s p
  | .write byte => execWrite byte s p
  | .command byte => execCommand byte s p

/-- One step of the block with parameters `p`. -/
def stepWith (p : Config) (s : State) : Host.Outcome State Fault Refusal :=
  match s.seq with
  | .idle => stepIdle (execWith p) s
  | .running _ _ => .next (stepRunning s p)

/-- The family of machines the spec describes, one for each choice of the parameters. -/
def blockWith (p : Config) : Host.Core where
  State := State
  Fault := Fault
  Refusal := Refusal
  step := stepWith p
  reset := .reset

end Sys2Proof.Machine
end

