-- ==== Sys2Proof/Safety.lean ====
section
/-! DEFINITION. The invariants of the block (R33 to R35) and what counts as a run in which every
request was performed. -/

namespace Sys2Proof.Machine

/-- Reserved bits of `DCTRL` are zero (R27, R34). -/
def DctrlOk (s : State) : Prop := s.dctrl.extractLsb' 3 5 = 0

/-- Reserved bits of `EMODE` are zero (R28, R34). -/
def EmodeOk (s : State) : Prop := s.emode.extractLsb' 2 6 = 0

/-- The configuration registers agree with each other and the reserved bits of `FSET` are zero
(R34, R35). -/
structure ConfigCoherent (s : State) : Prop where
  fset_high : s.fset.extractLsb' 4 4 = 0
  fset_low : s.fset.extractLsb' 0 2 = 0
  lines : s.numLines = 1 ∨ s.numLines = 2
  fset_lines : s.fset.getLsbD 3 = true ↔ s.numLines = 2
  fset_font : s.fset.getLsbD 2 = s.font
  two_wire : s.twoWire = true → s.pinEn = s.pinData

/-- What a sequencer step that writes registers has established once it is done. -/
def Micro.Established (m : Micro) (s : State) : Prop :=
  match m with
  | .configure .. => ConfigCoherent s
  | .initDctrl => DctrlOk s
  | .initEmode => EmodeOk s
  | .pinMode _ | .preClear | .driveEnable _ | .shiftFrame .. | .wait _ | .nibbleSettle
  | .updateDctrl .. | .updateEmode .. | .becomeReady | .complete _ => True

/-- The invariant of every step of the block with parameters `p`, for the default constants of R12: in
`READY` the registers are coherent (R34, R35); an operation in flight was accepted, and the register
writes it has passed have taken effect. -/
structure BlockInv (p : Config) (s : State) : Prop where
  table : p.cmd = CommandTable.hd44780
  config : s.phase = .ready → ConfigCoherent s
  dctrl : s.phase = .ready → DctrlOk s
  emode : s.phase = .ready → EmodeOk s
  accepted : ∀ i n, s.seq = .running i n → accepts s.phase i = true
  passed : ∀ i n, s.seq = .running i n → ∀ m ∈ (microcode i).take n, m.Established s

/-- Mask coherence (R33) as a reader of the whole trace sees it, whatever it knew before: the
controller waits for a high nibble in 4-bit mode with the enable line at rest, and the last
display-control, entry-mode and function-set commands it has taken are those of the cached masks. -/
def MaskCoherent (p : Config) (s : State) : Prop :=
  ∀ (mixed : Bool) (r : Reader),
    (r.read p.cmd mixed s.pinEn s.trace).iface = .fourHigh ∧
    (r.read p.cmd mixed s.pinEn s.trace).raised = false ∧
    lastCommand p.cmd.dispCtrl (r.read p.cmd mixed s.pinEn s.trace).taken =
      some (p.cmd.dispCtrl ||| s.dctrl) ∧
    lastCommand p.cmd.entryMode (r.read p.cmd mixed s.pinEn s.trace).taken =
      some (p.cmd.entryMode ||| s.emode) ∧
    lastCommand p.cmd.funcSet (r.read p.cmd mixed s.pinEn s.trace).taken =
      some (p.cmd.funcSet ||| s.fset)

/-- No request so far was refused: a refused request is no successful no-op (R184). -/
def State.allPerformed (s : State) : Bool := s.completions.all fun c => c.verdict == .performed

end Sys2Proof.Machine
end

