-- ==== Sys2Proof/WellFormed.lean ====
section
/-! DEFINITION. Well-formedness. Every operand of an operation is a byte and every byte is accepted
(R71, R181), so every `Instr` is well formed; what can be ill formed is a table of command constants
(R27, R28, R29, R80, R81). -/

namespace Sys2Proof

/-- Every operand value of every operation is accepted: out-of-range ones are clamped, masked or
wrapped, never rejected (R71, R181). Log 23. -/
def Instr.wellFormed : Instr → Bool
  | .init .. | .clear | .home | .setCursor .. | .display | .noDisplay | .cursor | .noCursor | .blink
  | .noBlink | .scrollLeft | .scrollRight | .shiftLeft | .shiftRight | .shiftInc | .shiftDec
  | .createChar .. | .write _ | .command _ => true

/-- Is exactly one bit of the byte set? -/
def oneBit (b : Byte) : Bool :=
  b != 0 && (b &&& (b - 1)) == 0

/-- A base constant has "a single bit set above its mask's field bits" (R81). -/
def baseAbove (base fields : Byte) : Bool :=
  oneBit base && decide (fields < base)

/-- The three display-control flags are three different bits (R27). -/
def CommandTable.dispFlagsOk (t : CommandTable) : Bool :=
  oneBit t.dcDisplay && oneBit t.dcCursor && oneBit t.dcBlink &&
    (t.dcDisplay &&& t.dcCursor) == 0 && (t.dcDisplay &&& t.dcBlink) == 0 &&
    (t.dcCursor &&& t.dcBlink) == 0

/-- The two entry-mode flags are two different bits (R28). -/
def CommandTable.entryFlagsOk (t : CommandTable) : Bool :=
  oneBit t.emLeft && oneBit t.emShiftInc && (t.emLeft &&& t.emShiftInc) == 0

/-- The three function-set flags are three different bits (R29). -/
def CommandTable.funcFlagsOk (t : CommandTable) : Bool :=
  oneBit t.fs8Bit && oneBit t.fs2Line && oneBit t.fs5x10 &&
    (t.fs8Bit &&& t.fs2Line) == 0 && (t.fs8Bit &&& t.fs5x10) == 0 &&
    (t.fs2Line &&& t.fs5x10) == 0

/-- No base constant overlaps the bits or-ed into it (R80, R81): its flags, the glyph slot (R62, R83) or
seven address bits. Bit 7 of R82's 8-bit sum falls on the base of set-DDRAM and "is lost in the or". -/
def CommandTable.basesOk (t : CommandTable) : Bool :=
  baseAbove t.dispCtrl (t.dcDisplay ||| t.dcCursor ||| t.dcBlink) &&
    baseAbove t.entryMode (t.emLeft ||| t.emShiftInc) &&
    baseAbove t.funcSet (t.fs8Bit ||| t.fs2Line ||| t.fs5x10) &&
    baseAbove t.shift (t.shDisplay ||| t.shRight) &&
    baseAbove t.setCgram 0x38 && baseAbove t.setDdram 0x7F

/-- The commands without an operand are one bit each (R80), and the two display-shift flags are two
different bits (R12). -/
def CommandTable.commandBitsOk (t : CommandTable) : Bool :=
  oneBit t.clear && oneBit t.home && oneBit t.shDisplay && oneBit t.shRight &&
    (t.shDisplay &&& t.shRight) == 0

/-- The whole check of a command table. -/
def CommandTable.wellFormed (t : CommandTable) : Bool :=
  t.dispFlagsOk && t.entryFlagsOk && t.funcFlagsOk && t.basesOk && t.commandBitsOk

end Sys2Proof
end

