-- ==== Sys2Proof/Certificates/Slice0/Obligations.lean ====
section
/-! DEFINITION. The statements about the model, from the numbered rules of `spec/`. -/

namespace Sys2Proof.Claims

open Sys2Proof.Machine

/-- `s` after a performed request that emitted `es` and returned `ret`: nothing else differs. -/
def finished (s : State) (es : List Event) (ret : Byte) : State :=
  { s with trace := s.trace ++ es, completions := s.completions ++ [⟨ret, .performed⟩], seq := .idle }

/-- `s` after a request refused for the reason `why`: only the completion differs (R184). The mark
`.refused why` on it is the model's own (log 3); the host sees `ret = 0`. -/
def turnedAway (s : State) (why : RefusedBecause) : State :=
  { s with completions := s.completions ++ [⟨0, .refused why⟩] }

/-- Performing `i` in `s` answers the next state `t p`: by `exec`, whose parameters are
`Config.block`, and in the block with any parameters `p` (R38). -/
def Performs (i : Instr) (s : State) (t : Config → State) : Prop :=
  exec i s = .next (t .block) ∧ ∀ p, execWith p i s = .next (t p)

/-- A step from `s` answers the next state `t p`: by `step`, and in the block with any parameters. -/
def StepsTo (s : State) (t : Config → State) : Prop :=
  step s = .next (t .block) ∧ ∀ p, stepWith p s = .next (t p)

/-- Performing `i` in `s` answered `t`, in the block with parameters `p`; where these are
`Config.block`, by `exec` as well. -/
def Ran (p : Config) (i : Instr) (s t : State) : Prop :=
  execWith p i s = .next t ∨ p = .block ∧ exec i s = .next t

/-- A step from `s` answered `t`, in the block with parameters `p`; where these are `Config.block`, by
`step` as well. -/
def Stepped (p : Config) (s t : State) : Prop :=
  stepWith p s = .next t ∨ p = .block ∧ step s = .next t

/-- The rule of an operation that writes no register: every request word with op code `op` decodes to
`i w`; in `READY` the operation emits `es` and returns `ret`; in `UNINIT` it is refused. -/
def PlainRule (op : Byte) (i : ReqWord → Instr) (es : Config → ReqWord → State → List Event)
    (ret : Byte) : Prop :=
  (∀ w, reqOp w = op → decode w = .ok (i w)) ∧
  (∀ w s, s.phase = .ready → Performs (i w) s fun p => finished s (es p w s) ret) ∧
  (∀ w s, s.phase = .uninit → Performs (i w) s fun _ => turnedAway s .uninitialized)

/-- The rule of a display-control operation (R160): `DCTRL` takes its new value, then the whole
display-control byte built from it is sent. -/
def DisplayRule (op : Byte) (i : Instr) (mask : CommandTable → Byte → Byte) : Prop :=
  (∀ w, reqOp w = op → decode w = .ok i) ∧
  (∀ s, s.phase = .ready → Performs i s fun p =>
    finished { s with dctrl := mask p.cmd s.dctrl }
      (s.sendEvents (p.cmd.dispCtrl ||| mask p.cmd s.dctrl) false) 0) ∧
  (∀ s, s.phase = .uninit → Performs i s fun _ => turnedAway s .uninitialized)

/-- The rule of an entry-mode operation (R160). -/
def EntryRule (op : Byte) (i : Instr) (mask : CommandTable → Byte → Byte) : Prop :=
  (∀ w, reqOp w = op → decode w = .ok i) ∧
  (∀ s, s.phase = .ready → Performs i s fun p =>
    finished { s with emode := mask p.cmd s.emode }
      (s.sendEvents (p.cmd.entryMode ||| mask p.cmd s.emode) false) 0) ∧
  (∀ s, s.phase = .uninit → Performs i s fun _ => turnedAway s .uninitialized)

/-- The configuration registers as INIT leaves them (R37, R84, R101, R103). -/
def configured (p : Config) (d c e : PinId) (lines font : Byte) (s : State) : State :=
  { s with
    twoWire := decide (e = p.twoWireSentinel)
    pinData := d
    pinClk := c
    pinEn := if e = p.twoWireSentinel then d else e
    numLines := if 1 < lines then 2 else 1
    font := decide (font ≠ 0)
    fset := (if 1 < lines then p.cmd.fs2Line else 0) ||| (if font ≠ 0 then p.cmd.fs5x10 else 0) }

/-- All registers of R20 but `SEQ`, and the reset count, of two states agree. -/
def SameRegisters (s t : State) : Prop :=
  s.pinData = t.pinData ∧ s.pinClk = t.pinClk ∧ s.pinEn = t.pinEn ∧ s.twoWire = t.twoWire ∧
  s.numLines = t.numLines ∧ s.font = t.font ∧ s.dctrl = t.dctrl ∧ s.emode = t.emode ∧
  s.fset = t.fset ∧ s.phase = t.phase ∧ s.resets = t.resets

/-- Everything but the nine registers whose reset value is unspecified agrees (R37). -/
def SameButUnspecified (s t : State) : Prop :=
  s.phase = t.phase ∧ s.seq = t.seq ∧ s.inputs = t.inputs ∧ s.trace = t.trace ∧
  s.completions = t.completions ∧ s.resets = t.resets

/-- One of the 32 frames of R78: `0x80 | (n << 3) | (rs << 2)`. -/
def LegalFrame (f : Byte) : Prop :=
  ∃ (n : BitVec 4) (rs : Bool), f = 0x80 ||| (n.setWidth 8 <<< 3) ||| (if rs then 0x04 else 0x00)

/-- The total delay each operation requests with `T_NIBBLE_SETTLE_US = 40` (R215, V70). -/
def requestedDelay : Instr → Nat
  | .init .. => 59024
  | .clear | .home => 2042
  | .createChar .. => 420
  | .setCursor .. | .display | .noDisplay | .cursor | .noCursor | .blink | .noBlink | .scrollLeft
  | .scrollRight | .shiftLeft | .shiftRight | .shiftInc | .shiftDec | .write _ | .command _ => 42

/-- The number of events of each operation, three-wire and two-wire (V70). -/
def eventCount : Instr → Nat × Nat
  | .init .. => (87, 101)
  | .clear | .home => (12, 14)
  | .createChar .. => (110, 130)
  | .setCursor .. | .display | .noDisplay | .cursor | .noCursor | .blink | .noBlink | .scrollLeft
  | .scrollRight | .shiftLeft | .shiftRight | .shiftInc | .shiftDec | .write _ | .command _ =>
      (11, 13)

/-- The number of events of each state of the initialization FSM, three-wire and two-wire (R113). -/
def initStateCount : InitState → Nat × Nat
  | .config => (3, 3)
  | .powerWait | .wait1 | .wait2 | .clearWait | .homeWait => (1, 1)
  | .fs8First | .fs8Second | .fs8Third | .fs4 => (6, 7)
  | .fsFinal | .dispOn | .clear | .entry | .home => (11, 13)

/-- Is the event a wait? -/
def isDelay : Event → Bool
  | .delay _ => true
  | .pinMode _ | .pinLevel _ _ | .shiftOut _ _ _ => false

/-- The events of a trace that are no waits, in order (R10). -/
def otherEvents (es : List Event) : List Event := es.filter fun e => !isDelay e

/-- What follows the `k`-th event of a trace that is no wait, counted from 0. -/
def afterOther : List Event → Nat → List Event
  | [], _ => []
  | e :: es, k =>
    if isDelay e then afterOther es k else
      match k with
      | 0 => es
      | k + 1 => afterOther es k

/-- The total delay between the `k`-th event that is no wait and the next one (R10). -/
def gapAfter (es : List Event) (k : Nat) : Nat := totalDelay ((afterOther es k).takeWhile isDelay)

/-- The ten mode operations of `43_mode_registers.md`. -/
def IsMode (i : Instr) : Prop :=
  i ∈ [.display, .noDisplay, .cursor, .noCursor, .blink, .noBlink, .shiftLeft, .shiftRight, .shiftInc,
    .shiftDec]

end Sys2Proof.Claims

open Sys2Proof Sys2Proof.Machine Sys2Proof.Claims

/-! ## Reset and the step -/

/-- The state right after reset: `UNINIT`, idle, empty trace, nothing pending; each of the nine other
registers holds its free value (the model's choice, log 2). -/
def Obligations.ResetLeavesUninitIdleEmpty : Prop :=
  State.reset.phase = .uninit ∧ State.reset.seq = .idle ∧ State.reset.trace = [] ∧
  State.reset.inputs = [] ∧ State.reset.completions = [] ∧
  State.reset.pinData = Config.unspecified .pinData 0 ∧
  State.reset.pinClk = Config.unspecified .pinClk 0 ∧
  State.reset.pinEn = Config.unspecified .pinEn 0 ∧
  State.reset.twoWire = (Config.unspecified .twoWire 0).getLsbD 0 ∧
  State.reset.numLines = (Config.unspecified .numLines 0).setWidth 2 ∧
  State.reset.font = (Config.unspecified .font 0).getLsbD 0 ∧
  State.reset.dctrl = Config.unspecified .dctrl 0 ∧
  State.reset.emode = Config.unspecified .emode 0 ∧ State.reset.fset = Config.unspecified .fset 0

/-- Reset, alone or together with a request, in any state: `UNINIT`, idle, registers unspecified
(the free values of log 2), no event, no completion, the events already emitted remain (log 8), the
request is not accepted (log 9). -/
def Obligations.ResetWinsAndAbandons : Prop :=
  ∀ (s : State) (rest : List HostInput) (w : ReqWord),
    (s.inputs = .reset :: rest ∨ s.inputs = .resetWithRequest w :: rest) →
    StepsTo s fun _ =>
      { s with
        inputs := rest, phase := .uninit, seq := .idle, resets := s.resets + 1
        pinData := Config.unspecified .pinData (s.resets + 1)
        pinClk := Config.unspecified .pinClk (s.resets + 1)
        pinEn := Config.unspecified .pinEn (s.resets + 1)
        twoWire := (Config.unspecified .twoWire (s.resets + 1)).getLsbD 0
        numLines := (Config.unspecified .numLines (s.resets + 1)).setWidth 2
        font := (Config.unspecified .font (s.resets + 1)).getLsbD 0
        dctrl := Config.unspecified .dctrl (s.resets + 1)
        emode := Config.unspecified .emode (s.resets + 1)
        fset := Config.unspecified .fset (s.resets + 1) }

/-- A step takes the request at the port and runs the operation it decodes to; a placed request word
is the one the next step runs. -/
def Obligations.StepRunsDecodedRequest : Prop :=
  (∀ (s : State) (w : ReqWord) (rest : List HostInput) (i : Instr),
    s.seq = .idle → s.inputs = .request w :: rest → decode w = .ok i →
    step s = exec i { s with inputs := rest } ∧
    ∀ p, stepWith p s = execWith p i { s with inputs := rest }) ∧
  (∀ (s : State) (nbits w : Nat) (i : Instr), decodeTableWord nbits w = some i →
    step (s.withFetchWord nbits w) = exec i { s with seq := .idle } ∧
    ∀ p, stepWith p (s.withFetchWord nbits w) = execWith p i { s with seq := .idle })

/-- `exec` and `step` are the block with the parameters `Config.block` (R11, R12, R38). -/
def Obligations.ExecIsOneOfTheBlocks : Prop :=
  (∀ (i : Instr) (s : State), exec i s = execWith .block i s) ∧
  (∀ s : State, step s = stepWith .block s)

/-- With nothing pending the block idles; with an operation in flight every step but a reset is one
tick of the sequencer, and a request waits (R31, R70, D21, R201). -/
def Obligations.IdleStuttersAndBusyPortWaits : Prop :=
  (∀ s : State, s.seq = .idle → s.inputs = [] → StepsTo s fun _ => s) ∧
  (∀ (s : State) (rest : List HostInput), s.seq = .idle → s.inputs = .wait :: rest →
    StepsTo s fun _ => { s with inputs := rest }) ∧
  (∀ (s : State) (i : Instr) (n : Nat), s.seq = .running i n → s.inputs = [] →
    StepsTo s fun p => s.tick p) ∧
  (∀ (s : State) (i : Instr) (n : Nat) (rest : List HostInput),
    s.seq = .running i n → s.inputs = .wait :: rest →
    StepsTo s fun p => { s with inputs := rest }.tick p) ∧
  (∀ (s : State) (i : Instr) (n : Nat) (w : ReqWord) (rest : List HostInput),
    s.seq = .running i n → (s.inputs = .request w :: rest ∨ s.inputs = .begin w :: rest) →
    (StepsTo s fun p => s.tick p) ∧ ∀ p, (s.tick p).inputs = s.inputs)

/-- No step ends in a fault or a refusal (R180: the list of causes is empty). -/
def Obligations.EveryStepAnswersNext : Prop :=
  ∀ s : State, ∃ t, StepsTo s t

/-- A step only appends to the trace and to the completions, and consumes at most one input
(R65, R202). -/
def Obligations.StepOnlyAppends : Prop :=
  ∀ (p : Config) (s t : State), Stepped p s t →
    (∃ es, t.trace = s.trace ++ es) ∧
    (t.completions = s.completions ∨ ∃ c, t.completions = s.completions ++ [c]) ∧
    (t.inputs = s.inputs ∨ ∃ a, s.inputs = a :: t.inputs)

/-- A request taken whole signals exactly one completion and leaves the sequencer idle; `ret` is 1 for
a performed WRITE and 0 otherwise (R74). -/
def Obligations.OneCompletionPerRequest : Prop :=
  ∀ (s : State) (w : ReqWord) (rest : List HostInput),
    s.seq = .idle → s.inputs = .request w :: rest →
    ∃ t c, StepsTo s t ∧
      (∀ p, (t p).completions = s.completions ++ [c] ∧ (t p).seq = .idle ∧ (t p).inputs = rest) ∧
      c.ret = (if reqOp w = 0x11 ∧ s.phase = .ready then 1 else 0)

/-! ## Refusal -/

/-- Reserved op codes: `0x13` to `0xFF` and nothing else name no operation; such a request is refused
without an event or a state change; a byte string of another length than ten is no request (R73). -/
def Obligations.ReservedOpCodesRefused : Prop :=
  (∀ w : ReqWord, (∃ i, decode w = .ok i) ↔ (reqOp w).toNat < 0x13) ∧
  (∀ w : ReqWord, 0x13 ≤ (reqOp w).toNat → decode w = .error (.reservedOp (reqOp w))) ∧
  (∀ bs : List Byte, bs.length ≠ 10 → decodeBytes bs = .error (.wrongLength bs.length)) ∧
  (∀ (s : State) (w : ReqWord) (rest : List HostInput), 0x13 ≤ (reqOp w).toNat → s.seq = .idle →
    (s.inputs = .request w :: rest ∨ s.inputs = .begin w :: rest) →
    StepsTo s fun _ => turnedAway { s with inputs := rest } .reservedOp)

/-- A request is refused exactly when (a) the phase is `UNINIT` and it is not INIT, or (b) its op code
is reserved; refused, it completes with `ret = 0` and changes nothing else; the model's mark tells it
from a performed one (R184). An accepted request taken whole is performed, one taken step by step
stands at its first step. -/
def Obligations.RefusedExactlyWhen : Prop :=
  ∀ (s : State) (w : ReqWord) (rest : List HostInput), s.seq = .idle →
    (((s.phase = .uninit ∧ reqOp w ≠ 0x00) ∨ 0x13 ≤ (reqOp w).toNat) →
      (s.inputs = .request w :: rest ∨ s.inputs = .begin w :: rest) →
      ∃ why, StepsTo s fun _ => turnedAway { s with inputs := rest } why) ∧
    (¬ ((s.phase = .uninit ∧ reqOp w ≠ 0x00) ∨ 0x13 ≤ (reqOp w).toNat) →
      (s.inputs = .request w :: rest →
        ∃ t ret, StepsTo s t ∧ ∀ p, (t p).phase = .ready ∧
          (t p).completions = s.completions ++ [⟨ret, .performed⟩]) ∧
      (s.inputs = .begin w :: rest →
        ∃ i, decode w = .ok i ∧
          StepsTo s fun _ => { s with inputs := rest, seq := .running i 0 }))

/-- A refused request is never counted as a successful one (R184, by the model's mark, log 3): after a
request every request so far was performed exactly if that was so before and this one is not refused. -/
def Obligations.RefusalIsNoSuccess : Prop :=
  ∀ (s : State) (w : ReqWord) (rest : List HostInput),
    s.seq = .idle → s.inputs = .request w :: rest →
    ∃ t, StepsTo s t ∧ ∀ p,
      ((t p).allPerformed = true ↔ s.allPerformed = true ∧
        ¬ ((s.phase = .uninit ∧ reqOp w ≠ 0x00) ∨ 0x13 ≤ (reqOp w).toNat))

/-! ## Encodings -/

/-- Words written out from R70 to R72 decode to the operation they stand for. -/
def Obligations.WordsDecodeAsSpecified : Prop :=
  decode 0x00020002030400000000 = .ok (.init 2 3 4 2 0) ∧
  decode 0x03050100000000000000 = .ok (.setCursor 5 1) ∧
  decode 0x06000000000000000000 = .ok .cursor ∧
  decode 0x0D000000000000000000 = .ok .shiftRight ∧
  decode 0x1001000A1F1F0E040000 = .ok (.createChar 1 0x00 0x0A 0x1F 0x1F 0x0E 0x04 0x00 0x00) ∧
  decode 0x11410000000000000000 = .ok (.write 0x41) ∧
  decode 0x125A0000000000000000 = .ok (.command 0x5A)

/-- Decoding an encoded operation gives it back, with every operand at every value. -/
def Obligations.DecodeOfEncodeIsIdentity : Prop :=
  ∀ i : Instr, i.wellFormed = true → decode (encode i) = .ok i

/-- A field an operation does not use is ignored and every field it uses counts (R71): a decoded word
agrees with the encoded word on the used bits, and any word with the same used bits decodes alike. -/
def Obligations.UnusedFieldsIgnored : Prop :=
  ∀ (w : ReqWord) (i : Instr), decode w = .ok i →
    encode i &&& i.usedBits = w &&& i.usedBits ∧
    ∀ w' : ReqWord, w' &&& i.usedBits = w &&& i.usedBits → decode w' = .ok i

/-- The encoder puts zeros into the fields an operation does not use: the model's choice (log 20), the
spec accepts any value there. -/
def Obligations.EncoderZeroesUnusedFields : Prop :=
  ∀ i : Instr, encode i &&& i.usedBits = encode i

/-- The frame encoder, bit for bit (R76). -/
def Obligations.FrameEncoderBits : Prop :=
  ∀ (value : Byte) (isData : Bool),
    (upperFrame value isData).extractLsb' 3 4 = value.extractLsb' 4 4 ∧
    (lowerFrame value isData).extractLsb' 3 4 = value.extractLsb' 0 4 ∧
    (upperFrame value isData).getLsbD 7 = true ∧ (lowerFrame value isData).getLsbD 7 = true ∧
    (upperFrame value isData).getLsbD 2 = isData ∧ (lowerFrame value isData).getLsbD 2 = isData ∧
    (upperFrame value isData).extractLsb' 0 2 = 0 ∧ (lowerFrame value isData).extractLsb' 0 2 = 0

/-- The nibble-only frame, bit for bit (R77). -/
def Obligations.NibbleFrameBits : Prop :=
  ∀ value : Byte,
    (nibbleFrame value).extractLsb' 3 4 = value.extractLsb' 4 4 ∧
    (nibbleFrame value).getLsbD 7 = true ∧ (nibbleFrame value).extractLsb' 0 3 = 0

/-- The row-offset table (R61). -/
def Obligations.RowOffsetTable : Prop :=
  rowOffset 0 = 0x00 ∧ rowOffset 1 = 0x40 ∧ rowOffset 2 = 0x14 ∧ rowOffset 3 = 0x54

/-- The table of R12 passes the well-formedness check: every constant is one bit, the flags or-ed
together are different bits, and every base lies above the flag or address bits or-ed into it (R81).
For set-DDRAM these are seven address bits; bit 7 of the 8-bit sum of R82 falls on the base's own bit
and "is lost in the or". -/
def Obligations.DefaultTableWellFormed : Prop :=
  CommandTable.hd44780.wellFormed = true

/-! ## Framing and strobe engine -/

/-- `FrameTx` appends exactly the events of R120, six in two-wire mode and five otherwise. -/
def Obligations.FrameTxEvents : Prop :=
  ∀ (s : State) (f : Byte),
    (s.twoWire = true → s.frameTx f = { s with trace := s.trace ++
      [.shiftOut s.pinData s.pinClk 0x00, .pinLevel s.pinEn .low, .shiftOut s.pinData s.pinClk f,
        .pinLevel s.pinEn .high, .delay 1, .pinLevel s.pinEn .low] }) ∧
    (s.twoWire = false → s.frameTx f = { s with trace := s.trace ++
      [.pinLevel s.pinEn .low, .shiftOut s.pinData s.pinClk f, .pinLevel s.pinEn .high, .delay 1,
        .pinLevel s.pinEn .low] })

/-- `Send` reconstructs its byte: a reader of the trace that waits for a high nibble sees two strobes
whose nibbles make the byte and whose register-selects equal the mode flag, and takes the byte (R79,
with R58 and R59). -/
def Obligations.SendReconstructsByte : Prop :=
  ∀ (s : State) (value : Byte) (isData : Bool) (t : CommandTable) (mixed : Bool) (r : Reader),
    (r.read t mixed s.pinEn s.trace).iface = .fourHigh →
    (r.read t mixed s.pinEn s.trace).raised = false →
    ∃ upper lower : Byte,
      (r.read t mixed s.pinEn (s.send value isData).trace).strobes =
        (r.read t mixed s.pinEn s.trace).strobes ++ [upper, lower] ∧
      upper.extractLsb' 3 4 ++ lower.extractLsb' 3 4 = value ∧
      upper.getLsbD 2 = isData ∧ lower.getLsbD 2 = isData ∧
      (r.read t mixed s.pinEn (s.send value isData).trace).taken =
        (r.read t mixed s.pinEn s.trace).taken ++ [⟨value, isData⟩]

/-- WRITE (R123). -/
def Obligations.WriteSendsDataByte : Prop :=
  PlainRule 0x11 (fun w => .write (reqA w)) (fun _ w s => s.sendEvents (reqA w) true) 1 ∧
  ∀ (byte : Byte) (s : State), s.phase = .ready →
    Performs (.write byte) s fun _ => finished s (s.sendEvents byte true) 1

/-- COMMAND (R124): exactly the send, no mask is updated, no long wait is added. -/
def Obligations.CommandSendsByteVerbatim : Prop :=
  PlainRule 0x12 (fun w => .command (reqA w)) (fun _ w s => s.sendEvents (reqA w) false) 0 ∧
  ∀ (byte : Byte) (s : State), s.phase = .ready →
    Performs (.command byte) s fun _ => finished s (s.sendEvents byte false) 0

/-! ## Display commands and the address mapper -/

/-- CLEAR and HOME (R140, R141). -/
def Obligations.ClearAndHomeWaitLong : Prop :=
  PlainRule 0x01 (fun _ => .clear)
    (fun p _ s => s.sendEvents p.cmd.clear false ++ [.delay 2000]) 0 ∧
  PlainRule 0x02 (fun _ => .home)
    (fun p _ s => s.sendEvents p.cmd.home false ++ [.delay 2000]) 0

/-- SETCURSOR (R142). -/
def Obligations.SetCursorSendsAddress : Prop :=
  (∀ w, reqOp w = 0x03 → decode w = .ok (.setCursor (reqA w) (reqB w))) ∧
  (∀ (s : State) (col row : Byte), s.phase = .ready →
    Performs (.setCursor col row) s fun p => finished s
      (s.sendEvents (p.cmd.setDdram ||| (col + rowOffset
        (if s.numLines.setWidth 8 < row then s.numLines - 1 else row.setWidth 2))) false) 0) ∧
  (∀ (s : State) (col row : Byte), s.phase = .uninit →
    Performs (.setCursor col row) s fun _ => turnedAway s .uninitialized)

/-- The outcomes of the row clamp (R143): with one line only row 1 reaches offset `0x40`, with two
lines row 2 reaches `0x14` and every row above it acts as row 1; `0x54` is never sent. The boundary
`row = NUMLINES` is the contested case that C1 resolves so (log 11). -/
def Obligations.RowClampOutcomes : Prop :=
  ∀ (s : State) (col row : Byte), s.phase = .ready →
    (s.numLines = 1 → Performs (.setCursor col row) s fun p => finished s (s.sendEvents
      (p.cmd.setDdram ||| (col + if row = 1 then 0x40 else 0x00)) false) 0) ∧
    (s.numLines = 2 → Performs (.setCursor col row) s fun p => finished s (s.sendEvents
      (p.cmd.setDdram |||
        (col + if row = 0 then 0x00 else if row = 2 then 0x14 else 0x40)) false) 0)

/-- No column is rejected: the controller byte is the command bit and the low seven bits of the sum,
so a column and the column 128 above it send the same byte (R63, for the default constants). -/
def Obligations.ColumnWrapsIntoSevenBits : Prop :=
  ∀ (s : State) (col row : Byte), s.phase = .ready →
    exec (.setCursor col row) s = .next (finished s (s.sendEvents (0x80 |||
      ((col + rowOffset (clampRow s.numLines row)) &&& 0x7F)) false) 0) ∧
    exec (.setCursor (col + 0x80) row) s = exec (.setCursor col row) s ∧
    ∀ p : Config, p.cmd = CommandTable.hd44780 →
      execWith p (.setCursor col row) s = .next (finished s (s.sendEvents (0x80 |||
        ((col + rowOffset (clampRow s.numLines row)) &&& 0x7F)) false) 0) ∧
      execWith p (.setCursor (col + 0x80) row) s = execWith p (.setCursor col row) s

/-- SCROLLLEFT and SCROLLRIGHT (R144, R145). -/
def Obligations.ScrollsSendShiftCommand : Prop :=
  PlainRule 0x0A (fun _ => .scrollLeft)
    (fun p _ s => s.sendEvents (p.cmd.shift ||| p.cmd.shDisplay) false) 0 ∧
  PlainRule 0x0B (fun _ => .scrollRight)
    (fun p _ s => s.sendEvents (p.cmd.shift ||| p.cmd.shDisplay ||| p.cmd.shRight) false) 0

/-- CREATECHAR (R146): slot address, eight rows in index order, unmasked, DDRAM address 0. -/
def Obligations.CreateCharSendsGlyph : Prop :=
  PlainRule 0x10
    (fun w => .createChar (reqA w) (reqB w) (reqG1 w) (reqG2 w) (reqG3 w) (reqG4 w) (reqG5 w) (reqG6 w)
      (reqG7 w))
    (fun p w s => s.sendEvents (p.cmd.setCgram ||| ((reqA w &&& 7) <<< 3)) false ++
      s.sendEvents (reqB w) true ++ s.sendEvents (reqG1 w) true ++ s.sendEvents (reqG2 w) true ++
      s.sendEvents (reqG3 w) true ++ s.sendEvents (reqG4 w) true ++ s.sendEvents (reqG5 w) true ++
      s.sendEvents (reqG6 w) true ++ s.sendEvents (reqG7 w) true ++
      s.sendEvents p.cmd.setDdram false) 0 ∧
  ∀ (s : State) (location g0 g1 g2 g3 g4 g5 g6 g7 : Byte), s.phase = .ready →
    Performs (.createChar location g0 g1 g2 g3 g4 g5 g6 g7) s fun p =>
      finished s (s.glyphEvents p location [g0, g1, g2, g3, g4, g5, g6, g7]) 0

/-- Only the low three bits of the glyph location matter (R146, R181). -/
def Obligations.GlyphLocationMasked : Prop :=
  ∀ (s : State) (location location' g0 g1 g2 g3 g4 g5 g6 g7 : Byte),
    location.extractLsb' 0 3 = location'.extractLsb' 0 3 →
    exec (.createChar location g0 g1 g2 g3 g4 g5 g6 g7) s =
      exec (.createChar location' g0 g1 g2 g3 g4 g5 g6 g7) s ∧
    ∀ p : Config, execWith p (.createChar location g0 g1 g2 g3 g4 g5 g6 g7) s =
      execWith p (.createChar location' g0 g1 g2 g3 g4 g5 g6 g7) s

/-! ## Mode registers -/

/-- The six display-control operations (R161 to R166). -/
def Obligations.DisplayControlOperations : Prop :=
  DisplayRule 0x04 .display (fun t m => m ||| t.dcDisplay) ∧
  DisplayRule 0x05 .noDisplay (fun t m => m &&& ~~~t.dcDisplay) ∧
  DisplayRule 0x06 .cursor (fun t m => m ||| t.dcCursor) ∧
  DisplayRule 0x07 .noCursor (fun t m => m &&& ~~~t.dcCursor) ∧
  DisplayRule 0x08 .blink (fun t m => m ||| t.dcBlink) ∧
  DisplayRule 0x09 .noBlink (fun t m => m &&& ~~~t.dcBlink)

/-- The four entry-mode operations (R167 to R170). -/
def Obligations.EntryModeOperations : Prop :=
  EntryRule 0x0C .shiftLeft (fun t m => m ||| t.emLeft) ∧
  EntryRule 0x0D .shiftRight (fun t m => m &&& ~~~t.emLeft) ∧
  EntryRule 0x0E .shiftInc (fun t m => m ||| t.emShiftInc) ∧
  EntryRule 0x0F .shiftDec (fun t m => m &&& ~~~t.emShiftInc)

/-- A mode operation requested twice in a row leaves the registers as the first left them and emits
the same events again, whether or not a bit changed (R171). -/
def Obligations.ModeOperationsIdempotent : Prop :=
  ∀ (p : Config) (i : Instr) (s t u : State), IsMode i → s.phase = .ready →
    Ran p i s t → Ran p i t u →
    SameRegisters t u ∧
    ∃ es, es ≠ [] ∧ t.trace = s.trace ++ es ∧ u.trace = t.trace ++ es

/-- A mode operation changes at most the one bit it names in the one mask it names (R172, for the
default constants). -/
def Obligations.ModeOperationsIndependent : Prop :=
  ∀ (p : Config) (s t : State) (k : Nat), p.cmd = CommandTable.hd44780 → s.phase = .ready →
    ((Ran p .display s t ∨ Ran p .noDisplay s t) →
      (k ≠ 2 → t.dctrl.getLsbD k = s.dctrl.getLsbD k) ∧
        SameRegisters { s with dctrl := t.dctrl } t) ∧
    ((Ran p .cursor s t ∨ Ran p .noCursor s t) →
      (k ≠ 1 → t.dctrl.getLsbD k = s.dctrl.getLsbD k) ∧
        SameRegisters { s with dctrl := t.dctrl } t) ∧
    ((Ran p .blink s t ∨ Ran p .noBlink s t) →
      (k ≠ 0 → t.dctrl.getLsbD k = s.dctrl.getLsbD k) ∧
        SameRegisters { s with dctrl := t.dctrl } t) ∧
    ((Ran p .shiftLeft s t ∨ Ran p .shiftRight s t) →
      (k ≠ 1 → t.emode.getLsbD k = s.emode.getLsbD k) ∧
        SameRegisters { s with emode := t.emode } t) ∧
    ((Ran p .shiftInc s t ∨ Ran p .shiftDec s t) →
      (k ≠ 0 → t.emode.getLsbD k = s.emode.getLsbD k) ∧
        SameRegisters { s with emode := t.emode } t)

/-- A raw mode command leaves the cached mask stale: CURSOR after `COMMAND byte` sends the mask as it
was before the COMMAND, with its own bit set (R212). -/
def Obligations.RawCommandLeavesMasksStale : Prop :=
  ∀ (s : State) (byte : Byte), s.phase = .ready →
    ∃ t, (Performs (.command byte) s fun _ => t) ∧ SameRegisters s t ∧
      Performs .cursor t fun p => finished { t with dctrl := s.dctrl ||| p.cmd.dcCursor }
        (s.sendEvents (p.cmd.dispCtrl ||| (s.dctrl ||| p.cmd.dcCursor)) false) 0

/-! ## Initialization -/

/-- INIT, in either phase: the registers it writes and its whole event sequence (R100). -/
def Obligations.InitRunsWholeSequence : Prop :=
  (∀ w, reqOp w = 0x00 →
    decode w = .ok (.init (reqG1 w) (reqG2 w) (reqG3 w) (reqA w) (reqB w))) ∧
  ∀ (s : State) (d c e : PinId) (lines font : Byte),
    Performs (.init d c e lines font) s fun p => finished
      { configured p d c e lines font s with
        dctrl := p.cmd.dcDisplay, emode := p.cmd.emLeft, phase := .ready }
      ((configured p d c e lines font s).initEvents p) 0

/-- The register values after INIT with the default constants (the table of R37), from any state. -/
def Obligations.RegistersAfterInit : Prop :=
  ∀ (s : State) (d c e : PinId) (lines font : Byte),
    ∃ t, Performs (.init d c e lines font) s t ∧ ∀ p : Config, p.cmd = CommandTable.hd44780 →
      (t p).pinData = d ∧ (t p).pinClk = c ∧
      (t p).pinEn = (if e = p.twoWireSentinel then d else e) ∧
      ((t p).twoWire = true ↔ e = p.twoWireSentinel) ∧
      (t p).numLines = (if 1 < lines then 2 else 1) ∧ ((t p).font = true ↔ font ≠ 0) ∧
      (t p).fset = (if 1 < lines then 0x08 else 0) ||| (if font ≠ 0 then 0x04 else 0) ∧
      (t p).dctrl = 0x04 ∧ (t p).emode = 0x02 ∧ (t p).phase = .ready

/-- INIT requested again overwrites every register: what it leaves and emits does not depend on the
registers before (R116). -/
def Obligations.InitForgetsOldRegisters : Prop :=
  ∀ (p : Config) (s s' t t' : State) (d c e : PinId) (lines font : Byte),
    s.resets = s'.resets →
    Ran p (.init d c e lines font) s t → Ran p (.init d c e lines font) s' t' →
    SameRegisters t t' ∧ ∃ es, t.trace = s.trace ++ es ∧ t'.trace = s'.trace ++ es

/-- The unspecified registers are never read before INIT writes them (R37, U2): two `UNINIT` states
that agree on everything else stay so, and agree on everything once `READY`. -/
def Obligations.UnspecifiedRegistersNeverRead : Prop :=
  ∀ (p : Config) (i : Instr) (s s' t t' : State), s.phase = .uninit → SameButUnspecified s s' →
    Ran p i s t → Ran p i s' t' →
    SameButUnspecified t t' ∧ (t.phase = .ready → t = t')

/-- The events of every state of the initialization FSM, counted in three-wire and two-wire mode
(R113): `I0` with its own configuration, every other state in the mode the state is in. -/
def Obligations.InitStateEventCounts : Prop :=
  ∀ (p : Config) (st : InitState) (d c e : PinId) (lines font : Byte) (s : State),
    p.nibbleSettleUs ≠ 0 →
    ((InitState.steps d c e lines font st).foldl (fun u m => m.perform p u) s).trace.length =
      s.trace.length +
        (if s.twoWire then (initStateCount st).2 else (initStateCount st).1)

/-- The handshake synchronises the interface width: whatever the interface state and the nibble phase
a reader starts from, after the waits, the three 8-bit function sets and the 4-bit select it is in
4-bit mode at a byte boundary (R210, with the controller's reading of a function set that log 13
presumes). -/
def Obligations.HandshakeEndsInFourBitMode : Prop :=
  ∀ (p : Config) (s : State) (mixed : Bool) (r : Reader), p.cmd = CommandTable.hd44780 →
    (r.read p.cmd mixed s.pinEn s.trace).raised = false →
    (r.read p.cmd mixed s.pinEn (s.handshake p).trace).iface = .fourHigh

/-! ## Properties of every operation -/

/-- Besides INIT (and reset), no operation writes the configuration registers or the phase, only the
six display-control operations write `DCTRL` and only the four entry-mode operations write `EMODE` (the
column "written by" of R20). -/
def Obligations.RegisterWriters : Prop :=
  ∀ (p : Config) (i : Instr) (s t : State), i.isInit = false → Ran p i s t →
    t.pinData = s.pinData ∧ t.pinClk = s.pinClk ∧ t.pinEn = s.pinEn ∧ t.twoWire = s.twoWire ∧
    t.numLines = s.numLines ∧ t.font = s.font ∧ t.fset = s.fset ∧ t.phase = s.phase ∧
    t.inputs = s.inputs ∧ t.resets = s.resets ∧
    (i ∉ [.display, .noDisplay, .cursor, .noCursor, .blink, .noBlink] → t.dctrl = s.dctrl) ∧
    (i ∉ [.shiftLeft, .shiftRight, .shiftInc, .shiftDec] → t.emode = s.emode)

/-- `PHASE` is written by reset and by INIT only (R20, R30): a step that changes it takes a reset and
leaves `UNINIT`, or takes an INIT whole, or advances an INIT in flight, and leaves `READY`. -/
def Obligations.PhaseChangesOnlyByResetAndInit : Prop :=
  ∀ (p : Config) (s t : State), Stepped p s t → t.phase ≠ s.phase →
    (t.phase = .uninit ∧
      (s.inputs = .reset :: t.inputs ∨ ∃ w, s.inputs = .resetWithRequest w :: t.inputs)) ∨
    (t.phase = .ready ∧ s.seq = .idle ∧ ∃ w, s.inputs = .request w :: t.inputs ∧ reqOp w = 0x00) ∨
    (t.phase = .ready ∧ ∃ i n, s.seq = .running i n ∧ i.isInit = true)

/-- There is no path to the pins but `FrameTx` and the three `PinMode` events of INIT (R125): the
events of an operation are whole frame groups on (`PIN_DATA`, `PIN_CLK`, `PIN_EN`) separated only by
waits. -/
def Obligations.OnlyFramesAndWaits : Prop :=
  ∀ (p : Config) (i : Instr) (s t : State), accepts s.phase i = true → Ran p i s t →
    ∃ gs : List (Byte ⊕ Nat), t.trace = s.trace ++
      (if i.isInit then [.pinMode t.pinData, .pinMode t.pinClk, .pinMode t.pinEn] else []) ++
      gs.flatMap (Sum.elim t.frameEvents fun us => [.delay us])

/-- Every frame an operation shifts out is one of the 32 legal frames, gate bit set, and is strobed
exactly once, in order; in two-wire mode a clear to zero stands before every frame and in three-wire
mode nowhere (R58, R78, R127, R209). -/
def Obligations.EveryFrameStrobedOnce : Prop :=
  ∀ (p : Config) (i : Instr) (s t : State) (es : List Event) (mixed : Bool) (r : Reader),
    accepts s.phase i = true → Ran p i s t → t.trace = s.trace ++ es → r.raised = false →
    ∃ fs : List Byte,
      (r.read p.cmd mixed t.pinEn es).strobes = r.strobes ++ fs ∧
      shiftedBytes es = (if t.twoWire then fs.flatMap fun f => [0x00, f] else fs) ∧
      ∀ f ∈ fs, LegalFrame f

/-- The delay every operation requests in total (R215). -/
def Obligations.RequestedDelayTotals : Prop :=
  ∀ (p : Config) (i : Instr) (s t : State) (es : List Event),
    p.nibbleSettleUs = 40 → accepts s.phase i = true → Ran p i s t →
    t.trace = s.trace ++ es → totalDelay es = requestedDelay i

/-- The number of events of every operation, three-wire and two-wire (V70). -/
def Obligations.EventTotals : Prop :=
  ∀ (p : Config) (i : Instr) (s t : State) (es : List Event),
    p.nibbleSettleUs ≠ 0 → accepts s.phase i = true → Ran p i s t →
    t.trace = s.trace ++ es →
    es.length = if t.twoWire then (eventCount i).2 else (eventCount i).1

/-- The conformance relation (R10): an implementation's trace conforms to a trace exactly if its events
other than waits are the same in the same order, and after each of them the total wait is at least as
long. So how one wait is split is not observable, a longer wait conforms, every trace conforms to
itself, conformance composes, and a shorter wait after any other event does not conform. -/
def Obligations.ConformanceRelation : Prop :=
  (∀ a b : List Event, conforms a b = true ↔
    otherEvents a = otherEvents b ∧ ∀ k, gapAfter b k ≤ gapAfter a k) ∧
  (∀ a b : List Event, otherEvents a ≠ otherEvents b → conforms a b = false) ∧
  (∀ a : List Event, conforms a a = true) ∧
  (∀ a b c : List Event, conforms a b = true → conforms b c = true → conforms a c = true) ∧
  (∀ (a b : List Event) (m n : Nat),
    conforms (a ++ .delay (m + n) :: b) (a ++ .delay m :: .delay n :: b) = true ∧
    conforms (a ++ .delay m :: .delay n :: b) (a ++ .delay (m + n) :: b) = true) ∧
  (∀ (a b : List Event) (m n : Nat), m ≤ n →
    conforms (a ++ .delay n :: b) (a ++ .delay m :: b) = true) ∧
  (∀ (e : Event) (a b : List Event) (m n : Nat), isDelay e = false → m < n →
    conforms (a ++ e :: .delay m :: b) (a ++ e :: .delay n :: b) = false)

/-! ## Invariants -/

/-- The invariant of the registers and the sequencer holds at reset. -/
def Obligations.InvariantAtReset : Prop :=
  BlockInv .block State.reset ∧
  ∀ p : Config, p.cmd = CommandTable.hd44780 → BlockInv p State.reset

/-- Every step keeps the invariant: in `READY` reserved mask bits are zero and the configuration
registers agree (R34, R35, for the default constants), also while an operation is in flight. -/
def Obligations.InvariantKeptByEveryStep : Prop :=
  ∀ (p : Config) (s t : State), BlockInv p s → Stepped p s t → BlockInv p t

/-- INIT establishes mask coherence whatever the controller's state was (R33, R115). -/
def Obligations.InitEstablishesMaskCoherence : Prop :=
  ∀ (p : Config) (s t : State) (d c e : PinId) (lines font : Byte),
    p.cmd = CommandTable.hd44780 → Ran p (.init d c e lines font) s t → MaskCoherent p t

/-- Every operation keeps mask coherence, as long as the host sends no mode command through COMMAND
(R33, C3). -/
def Obligations.MaskCoherenceKept : Prop :=
  ∀ (p : Config) (i : Instr) (s t : State), BlockInv p s → s.phase = .ready → MaskCoherent p s →
    (∀ byte, i = .command byte → isModeCommand p.cmd byte = false) →
    Ran p i s t → MaskCoherent p t

/-! ## The two grains -/

/-- The atomic meaning of every operation is what its sequencer steps do, one tick each (R31, R113,
D27). -/
def Obligations.SequencerRefinesOperations : Prop :=
  ∀ (i : Instr) (s : State), s.seq = .idle → accepts s.phase i = true →
    Performs i s fun p => { s with seq := .running i 0 }.ticks (microcode i).length p

/-- Reset inside an operation (R202): after any number of its sequencer steps short of all, a prefix of
the operation's events has been emitted, reset keeps exactly these, no completion is signalled and the
block is `UNINIT` and idle. -/
def Obligations.AbandonedOperationKeepsPrefix : Prop :=
  ∀ (p : Config) (i : Instr) (s t : State) (k : Nat) (rest : List HostInput),
    s.seq = .idle → accepts s.phase i = true → Ran p i s t → k < (microcode i).length →
    ({ s with seq := .running i 0 }.ticks k p).trace <+: t.trace ∧
    s.trace <+: ({ s with seq := .running i 0 }.ticks k p).trace ∧
    ∃ v, (StepsTo { ({ s with seq := .running i 0 }.ticks k p) with inputs := .reset :: rest }
        fun _ => v) ∧
      v.trace = ({ s with seq := .running i 0 }.ticks k p).trace ∧ v.completions = s.completions ∧
      v.phase = .uninit ∧ v.seq = .idle ∧ v.inputs = rest
end

