-- ==== Sys2Proof/Laws/Decode.lean ====
section
/-! SUPPORT. The fields of a packed request word are the bytes it was packed from (R70). -/

namespace Sys2Proof

variable (op a b g1 g2 g3 g4 g5 g6 g7 : Byte)

/-- Bit `k` of a packed request word stands in the byte its position names. -/
theorem packReq_getLsbD (k : Nat) : (packReq op a b g1 g2 g3 g4 g5 g6 g7).getLsbD k =
    if k < 8 then g7.getLsbD k else if k - 8 < 8 then g6.getLsbD (k - 8)
    else if k - 8 - 8 < 8 then g5.getLsbD (k - 8 - 8)
    else if k - 8 - 8 - 8 < 8 then g4.getLsbD (k - 8 - 8 - 8)
    else if k - 8 - 8 - 8 - 8 < 8 then g3.getLsbD (k - 8 - 8 - 8 - 8)
    else if k - 8 - 8 - 8 - 8 - 8 < 8 then g2.getLsbD (k - 8 - 8 - 8 - 8 - 8)
    else if k - 8 - 8 - 8 - 8 - 8 - 8 < 8 then g1.getLsbD (k - 8 - 8 - 8 - 8 - 8 - 8)
    else if k - 8 - 8 - 8 - 8 - 8 - 8 - 8 < 8 then b.getLsbD (k - 8 - 8 - 8 - 8 - 8 - 8 - 8)
    else if k - 8 - 8 - 8 - 8 - 8 - 8 - 8 - 8 < 8 then
      a.getLsbD (k - 8 - 8 - 8 - 8 - 8 - 8 - 8 - 8)
    else op.getLsbD (k - 8 - 8 - 8 - 8 - 8 - 8 - 8 - 8 - 8) := by
  change @BitVec.getLsbD (8 + 8 + 8 + 8 + 8 + 8 + 8 + 8 + 8 + 8)
    (op ++ a ++ b ++ g1 ++ g2 ++ g3 ++ g4 ++ g5 ++ g6 ++ g7) k = _
  simp only [BitVec.getLsbD_append]

/-- A byte of a word is given by its bits. -/
theorem byteAt_eq {w : ReqWord} {lo : Nat} {x : Byte}
    (h : ∀ i, i < 8 → w.getLsbD (lo + i) = x.getLsbD i) : ReqWord.byteAt w lo = x := by
  unfold ReqWord.byteAt
  ext i hi
  simpa [BitVec.getLsbD_eq_getElem hi] using h i hi

@[simp] theorem reqOp_packReq : reqOp (packReq op a b g1 g2 g3 g4 g5 g6 g7) = op :=
  byteAt_eq fun i hi => by
    rw [packReq_getLsbD]; repeat rw [if_neg (by omega)]
    congr 1; omega

@[simp] theorem reqA_packReq : reqA (packReq op a b g1 g2 g3 g4 g5 g6 g7) = a :=
  byteAt_eq fun i hi => by
    rw [packReq_getLsbD]; repeat rw [if_neg (by omega)]
    rw [if_pos (by omega)]; congr 1; omega

@[simp] theorem reqB_packReq : reqB (packReq op a b g1 g2 g3 g4 g5 g6 g7) = b :=
  byteAt_eq fun i hi => by
    rw [packReq_getLsbD]; repeat rw [if_neg (by omega)]
    rw [if_pos (by omega)]; congr 1; omega

@[simp] theorem reqG1_packReq : reqG1 (packReq op a b g1 g2 g3 g4 g5 g6 g7) = g1 :=
  byteAt_eq fun i hi => by
    rw [packReq_getLsbD]; repeat rw [if_neg (by omega)]
    rw [if_pos (by omega)]; congr 1; omega

@[simp] theorem reqG2_packReq : reqG2 (packReq op a b g1 g2 g3 g4 g5 g6 g7) = g2 :=
  byteAt_eq fun i hi => by
    rw [packReq_getLsbD]; repeat rw [if_neg (by omega)]
    rw [if_pos (by omega)]; congr 1; omega

@[simp] theorem reqG3_packReq : reqG3 (packReq op a b g1 g2 g3 g4 g5 g6 g7) = g3 :=
  byteAt_eq fun i hi => by
    rw [packReq_getLsbD]; repeat rw [if_neg (by omega)]
    rw [if_pos (by omega)]; congr 1; omega

@[simp] theorem reqG4_packReq : reqG4 (packReq op a b g1 g2 g3 g4 g5 g6 g7) = g4 :=
  byteAt_eq fun i hi => by
    rw [packReq_getLsbD]; repeat rw [if_neg (by omega)]
    rw [if_pos (by omega)]; congr 1; omega

@[simp] theorem reqG5_packReq : reqG5 (packReq op a b g1 g2 g3 g4 g5 g6 g7) = g5 :=
  byteAt_eq fun i hi => by
    rw [packReq_getLsbD]; repeat rw [if_neg (by omega)]
    rw [if_pos (by omega)]; congr 1; omega

@[simp] theorem reqG6_packReq : reqG6 (packReq op a b g1 g2 g3 g4 g5 g6 g7) = g6 :=
  byteAt_eq fun i hi => by
    rw [packReq_getLsbD, if_neg (by omega), if_pos (by omega)]; congr 1; omega

@[simp] theorem reqG7_packReq : reqG7 (packReq op a b g1 g2 g3 g4 g5 g6 g7) = g7 :=
  byteAt_eq fun i hi => by
    rw [packReq_getLsbD, if_pos (by omega)]; congr 1; omega

/-- The op code stands in the op field of every encoded operation. -/
theorem reqOp_encode (i : Instr) : reqOp (encode i) = i.opcode := by
  cases i <;> exact reqOp_packReq ..

/-- A request word is its ten fields (R70). -/
theorem packReq_fields (w : ReqWord) : packReq (reqOp w) (reqA w) (reqB w) (reqG1 w) (reqG2 w)
    (reqG3 w) (reqG4 w) (reqG5 w) (reqG6 w) (reqG7 w) = w := by
  apply BitVec.eq_of_getLsbD_eq
  intro k hk
  rw [packReq_getLsbD]
  simp only [reqOp, reqA, reqB, reqG1, reqG2, reqG3, reqG4, reqG5, reqG6, reqG7, ReqWord.byteAt,
    BitVec.getLsbD_extractLsb']
  split_ifs <;> (rw [decide_eq_true (by omega), Bool.true_and]; congr 1; omega)

/-- Masking a packed request word masks field by field. -/
theorem packReq_and (op' a' b' g1' g2' g3' g4' g5' g6' g7' : Byte) :
    packReq op a b g1 g2 g3 g4 g5 g6 g7 &&& packReq op' a' b' g1' g2' g3' g4' g5' g6' g7' =
      packReq (op &&& op') (a &&& a') (b &&& b') (g1 &&& g1') (g2 &&& g2') (g3 &&& g3')
        (g4 &&& g4') (g5 &&& g5') (g6 &&& g6') (g7 &&& g7') := by
  have h : ∀ (c : Prop) [Decidable c] (x y x' y' : Bool),
      ((if c then x else y) && (if c then x' else y')) = if c then x && x' else y && y' := by
    intro c _ x y x' y'
    split <;> rfl
  apply BitVec.eq_of_getLsbD_eq
  intro k hk
  rw [BitVec.getLsbD_and]
  simp only [packReq_getLsbD, h, BitVec.getLsbD_and]

end Sys2Proof
end

