-- ==== Sys2Proof/Laws/State.lean ====
section
/-! SUPPORT. One lemma per field per register write of `Machine/Ops.lean`, so that no later proof
unfolds a record update. -/

namespace Sys2Proof.Machine

variable (p : Config) (s : State)

/-! ### `emit` -/

@[simp] theorem State.emit_pinData (e : Event) : (s.emit e).pinData = s.pinData := rfl
@[simp] theorem State.emit_pinClk (e : Event) : (s.emit e).pinClk = s.pinClk := rfl
@[simp] theorem State.emit_pinEn (e : Event) : (s.emit e).pinEn = s.pinEn := rfl
@[simp] theorem State.emit_twoWire (e : Event) : (s.emit e).twoWire = s.twoWire := rfl
@[simp] theorem State.emit_numLines (e : Event) : (s.emit e).numLines = s.numLines := rfl
@[simp] theorem State.emit_font (e : Event) : (s.emit e).font = s.font := rfl
@[simp] theorem State.emit_dctrl (e : Event) : (s.emit e).dctrl = s.dctrl := rfl
@[simp] theorem State.emit_emode (e : Event) : (s.emit e).emode = s.emode := rfl
@[simp] theorem State.emit_fset (e : Event) : (s.emit e).fset = s.fset := rfl
@[simp] theorem State.emit_phase (e : Event) : (s.emit e).phase = s.phase := rfl
@[simp] theorem State.emit_seq (e : Event) : (s.emit e).seq = s.seq := rfl
@[simp] theorem State.emit_inputs (e : Event) : (s.emit e).inputs = s.inputs := rfl
@[simp] theorem State.emit_trace (e : Event) : (s.emit e).trace = s.trace ++ [e] := rfl
@[simp] theorem State.emit_completions (e : Event) : (s.emit e).completions = s.completions := rfl
@[simp] theorem State.emit_resets (e : Event) : (s.emit e).resets = s.resets := rfl

/-! ### `configure` -/

@[simp] theorem State.configure_pinData (d c e : PinId) (lines font : Byte) :
    (s.configure p d c e lines font).pinData = d := rfl
@[simp] theorem State.configure_pinClk (d c e : PinId) (lines font : Byte) :
    (s.configure p d c e lines font).pinClk = c := rfl
@[simp] theorem State.configure_pinEn (d c e : PinId) (lines font : Byte) :
    (s.configure p d c e lines font).pinEn = enablePinFor p d e := rfl
@[simp] theorem State.configure_twoWire (d c e : PinId) (lines font : Byte) :
    (s.configure p d c e lines font).twoWire = twoWireFlag p e := rfl
@[simp] theorem State.configure_numLines (d c e : PinId) (lines font : Byte) :
    (s.configure p d c e lines font).numLines = lineCount lines := rfl
@[simp] theorem State.configure_font (d c e : PinId) (lines font : Byte) :
    (s.configure p d c e lines font).font = fontFlag font := rfl
@[simp] theorem State.configure_dctrl (d c e : PinId) (lines font : Byte) :
    (s.configure p d c e lines font).dctrl = s.dctrl := rfl
@[simp] theorem State.configure_emode (d c e : PinId) (lines font : Byte) :
    (s.configure p d c e lines font).emode = s.emode := rfl
@[simp] theorem State.configure_fset (d c e : PinId) (lines font : Byte) :
    (s.configure p d c e lines font).fset = funcSetMask p.cmd (lineCount lines) (fontFlag font) := rfl
@[simp] theorem State.configure_phase (d c e : PinId) (lines font : Byte) :
    (s.configure p d c e lines font).phase = s.phase := rfl
@[simp] theorem State.configure_seq (d c e : PinId) (lines font : Byte) :
    (s.configure p d c e lines font).seq = s.seq := rfl
@[simp] theorem State.configure_inputs (d c e : PinId) (lines font : Byte) :
    (s.configure p d c e lines font).inputs = s.inputs := rfl
@[simp] theorem State.configure_trace (d c e : PinId) (lines font : Byte) :
    (s.configure p d c e lines font).trace = s.trace := rfl
@[simp] theorem State.configure_completions (d c e : PinId) (lines font : Byte) :
    (s.configure p d c e lines font).completions = s.completions := rfl
@[simp] theorem State.configure_resets (d c e : PinId) (lines font : Byte) :
    (s.configure p d c e lines font).resets = s.resets := rfl

/-! ### `updateDctrl` -/

@[simp] theorem State.updateDctrl_pinData (f : DispFlag) (on : Bool) :
    (s.updateDctrl p f on).pinData = s.pinData := rfl
@[simp] theorem State.updateDctrl_pinClk (f : DispFlag) (on : Bool) :
    (s.updateDctrl p f on).pinClk = s.pinClk := rfl
@[simp] theorem State.updateDctrl_pinEn (f : DispFlag) (on : Bool) :
    (s.updateDctrl p f on).pinEn = s.pinEn := rfl
@[simp] theorem State.updateDctrl_twoWire (f : DispFlag) (on : Bool) :
    (s.updateDctrl p f on).twoWire = s.twoWire := rfl
@[simp] theorem State.updateDctrl_numLines (f : DispFlag) (on : Bool) :
    (s.updateDctrl p f on).numLines = s.numLines := rfl
@[simp] theorem State.updateDctrl_font (f : DispFlag) (on : Bool) :
    (s.updateDctrl p f on).font = s.font := rfl
@[simp] theorem State.updateDctrl_dctrl (f : DispFlag) (on : Bool) :
    (s.updateDctrl p f on).dctrl = updateBit s.dctrl (f.bit p.cmd) on := rfl
@[simp] theorem State.updateDctrl_emode (f : DispFlag) (on : Bool) :
    (s.updateDctrl p f on).emode = s.emode := rfl
@[simp] theorem State.updateDctrl_fset (f : DispFlag) (on : Bool) :
    (s.updateDctrl p f on).fset = s.fset := rfl
@[simp] theorem State.updateDctrl_phase (f : DispFlag) (on : Bool) :
    (s.updateDctrl p f on).phase = s.phase := rfl
@[simp] theorem State.updateDctrl_seq (f : DispFlag) (on : Bool) :
    (s.updateDctrl p f on).seq = s.seq := rfl
@[simp] theorem State.updateDctrl_inputs (f : DispFlag) (on : Bool) :
    (s.updateDctrl p f on).inputs = s.inputs := rfl
@[simp] theorem State.updateDctrl_trace (f : DispFlag) (on : Bool) :
    (s.updateDctrl p f on).trace = s.trace := rfl
@[simp] theorem State.updateDctrl_completions (f : DispFlag) (on : Bool) :
    (s.updateDctrl p f on).completions = s.completions := rfl
@[simp] theorem State.updateDctrl_resets (f : DispFlag) (on : Bool) :
    (s.updateDctrl p f on).resets = s.resets := rfl

/-! ### `updateEmode` -/

@[simp] theorem State.updateEmode_pinData (f : EntryFlag) (on : Bool) :
    (s.updateEmode p f on).pinData = s.pinData := rfl
@[simp] theorem State.updateEmode_pinClk (f : EntryFlag) (on : Bool) :
    (s.updateEmode p f on).pinClk = s.pinClk := rfl
@[simp] theorem State.updateEmode_pinEn (f : EntryFlag) (on : Bool) :
    (s.updateEmode p f on).pinEn = s.pinEn := rfl
@[simp] theorem State.updateEmode_twoWire (f : EntryFlag) (on : Bool) :
    (s.updateEmode p f on).twoWire = s.twoWire := rfl
@[simp] theorem State.updateEmode_numLines (f : EntryFlag) (on : Bool) :
    (s.updateEmode p f on).numLines = s.numLines := rfl
@[simp] theorem State.updateEmode_font (f : EntryFlag) (on : Bool) :
    (s.updateEmode p f on).font = s.font := rfl
@[simp] theorem State.updateEmode_dctrl (f : EntryFlag) (on : Bool) :
    (s.updateEmode p f on).dctrl = s.dctrl := rfl
@[simp] theorem State.updateEmode_emode (f : EntryFlag) (on : Bool) :
    (s.updateEmode p f on).emode = updateBit s.emode (f.bit p.cmd) on := rfl
@[simp] theorem State.updateEmode_fset (f : EntryFlag) (on : Bool) :
    (s.updateEmode p f on).fset = s.fset := rfl
@[simp] theorem State.updateEmode_phase (f : EntryFlag) (on : Bool) :
    (s.updateEmode p f on).phase = s.phase := rfl
@[simp] theorem State.updateEmode_seq (f : EntryFlag) (on : Bool) :
    (s.updateEmode p f on).seq = s.seq := rfl
@[simp] theorem State.updateEmode_inputs (f : EntryFlag) (on : Bool) :
    (s.updateEmode p f on).inputs = s.inputs := rfl
@[simp] theorem State.updateEmode_trace (f : EntryFlag) (on : Bool) :
    (s.updateEmode p f on).trace = s.trace := rfl
@[simp] theorem State.updateEmode_completions (f : EntryFlag) (on : Bool) :
    (s.updateEmode p f on).completions = s.completions := rfl
@[simp] theorem State.updateEmode_resets (f : EntryFlag) (on : Bool) :
    (s.updateEmode p f on).resets = s.resets := rfl

/-! ### `initDctrl` -/

@[simp] theorem State.initDctrl_pinData : (s.initDctrl p).pinData = s.pinData := rfl
@[simp] theorem State.initDctrl_pinClk : (s.initDctrl p).pinClk = s.pinClk := rfl
@[simp] theorem State.initDctrl_pinEn : (s.initDctrl p).pinEn = s.pinEn := rfl
@[simp] theorem State.initDctrl_twoWire : (s.initDctrl p).twoWire = s.twoWire := rfl
@[simp] theorem State.initDctrl_numLines : (s.initDctrl p).numLines = s.numLines := rfl
@[simp] theorem State.initDctrl_font : (s.initDctrl p).font = s.font := rfl
@[simp] theorem State.initDctrl_dctrl : (s.initDctrl p).dctrl = p.cmd.dcDisplay := rfl
@[simp] theorem State.initDctrl_emode : (s.initDctrl p).emode = s.emode := rfl
@[simp] theorem State.initDctrl_fset : (s.initDctrl p).fset = s.fset := rfl
@[simp] theorem State.initDctrl_phase : (s.initDctrl p).phase = s.phase := rfl
@[simp] theorem State.initDctrl_seq : (s.initDctrl p).seq = s.seq := rfl
@[simp] theorem State.initDctrl_inputs : (s.initDctrl p).inputs = s.inputs := rfl
@[simp] theorem State.initDctrl_trace : (s.initDctrl p).trace = s.trace := rfl
@[simp] theorem State.initDctrl_completions : (s.initDctrl p).completions = s.completions := rfl
@[simp] theorem State.initDctrl_resets : (s.initDctrl p).resets = s.resets := rfl

/-! ### `initEmode` -/

@[simp] theorem State.initEmode_pinData : (s.initEmode p).pinData = s.pinData := rfl
@[simp] theorem State.initEmode_pinClk : (s.initEmode p).pinClk = s.pinClk := rfl
@[simp] theorem State.initEmode_pinEn : (s.initEmode p).pinEn = s.pinEn := rfl
@[simp] theorem State.initEmode_twoWire : (s.initEmode p).twoWire = s.twoWire := rfl
@[simp] theorem State.initEmode_numLines : (s.initEmode p).numLines = s.numLines := rfl
@[simp] theorem State.initEmode_font : (s.initEmode p).font = s.font := rfl
@[simp] theorem State.initEmode_dctrl : (s.initEmode p).dctrl = s.dctrl := rfl
@[simp] theorem State.initEmode_emode : (s.initEmode p).emode = p.cmd.emLeft := rfl
@[simp] theorem State.initEmode_fset : (s.initEmode p).fset = s.fset := rfl
@[simp] theorem State.initEmode_phase : (s.initEmode p).phase = s.phase := rfl
@[simp] theorem State.initEmode_seq : (s.initEmode p).seq = s.seq := rfl
@[simp] theorem State.initEmode_inputs : (s.initEmode p).inputs = s.inputs := rfl
@[simp] theorem State.initEmode_trace : (s.initEmode p).trace = s.trace := rfl
@[simp] theorem State.initEmode_completions : (s.initEmode p).completions = s.completions := rfl
@[simp] theorem State.initEmode_resets : (s.initEmode p).resets = s.resets := rfl

/-! ### `becomeReady` -/

@[simp] theorem State.becomeReady_pinData : s.becomeReady.pinData = s.pinData := rfl
@[simp] theorem State.becomeReady_pinClk : s.becomeReady.pinClk = s.pinClk := rfl
@[simp] theorem State.becomeReady_pinEn : s.becomeReady.pinEn = s.pinEn := rfl
@[simp] theorem State.becomeReady_twoWire : s.becomeReady.twoWire = s.twoWire := rfl
@[simp] theorem State.becomeReady_numLines : s.becomeReady.numLines = s.numLines := rfl
@[simp] theorem State.becomeReady_font : s.becomeReady.font = s.font := rfl
@[simp] theorem State.becomeReady_dctrl : s.becomeReady.dctrl = s.dctrl := rfl
@[simp] theorem State.becomeReady_emode : s.becomeReady.emode = s.emode := rfl
@[simp] theorem State.becomeReady_fset : s.becomeReady.fset = s.fset := rfl
@[simp] theorem State.becomeReady_phase : s.becomeReady.phase = .ready := rfl
@[simp] theorem State.becomeReady_seq : s.becomeReady.seq = s.seq := rfl
@[simp] theorem State.becomeReady_inputs : s.becomeReady.inputs = s.inputs := rfl
@[simp] theorem State.becomeReady_trace : s.becomeReady.trace = s.trace := rfl
@[simp] theorem State.becomeReady_completions : s.becomeReady.completions = s.completions := rfl
@[simp] theorem State.becomeReady_resets : s.becomeReady.resets = s.resets := rfl

/-! ### `complete` -/

@[simp] theorem State.complete_pinData (ret : Byte) : (s.complete ret).pinData = s.pinData := rfl
@[simp] theorem State.complete_pinClk (ret : Byte) : (s.complete ret).pinClk = s.pinClk := rfl
@[simp] theorem State.complete_pinEn (ret : Byte) : (s.complete ret).pinEn = s.pinEn := rfl
@[simp] theorem State.complete_twoWire (ret : Byte) : (s.complete ret).twoWire = s.twoWire := rfl
@[simp] theorem State.complete_numLines (ret : Byte) : (s.complete ret).numLines = s.numLines := rfl
@[simp] theorem State.complete_font (ret : Byte) : (s.complete ret).font = s.font := rfl
@[simp] theorem State.complete_dctrl (ret : Byte) : (s.complete ret).dctrl = s.dctrl := rfl
@[simp] theorem State.complete_emode (ret : Byte) : (s.complete ret).emode = s.emode := rfl
@[simp] theorem State.complete_fset (ret : Byte) : (s.complete ret).fset = s.fset := rfl
@[simp] theorem State.complete_phase (ret : Byte) : (s.complete ret).phase = s.phase := rfl
@[simp] theorem State.complete_seq (ret : Byte) : (s.complete ret).seq = .idle := rfl
@[simp] theorem State.complete_inputs (ret : Byte) : (s.complete ret).inputs = s.inputs := rfl
@[simp] theorem State.complete_trace (ret : Byte) : (s.complete ret).trace = s.trace := rfl
@[simp] theorem State.complete_completions (ret : Byte) :
    (s.complete ret).completions = s.completions ++ [⟨ret, .performed⟩] := rfl
@[simp] theorem State.complete_resets (ret : Byte) : (s.complete ret).resets = s.resets := rfl

/-! ### `refuse` -/

@[simp] theorem State.refuse_pinData (why : RefusedBecause) :
    (s.refuse why).pinData = s.pinData := rfl
@[simp] theorem State.refuse_pinClk (why : RefusedBecause) : (s.refuse why).pinClk = s.pinClk := rfl
@[simp] theorem State.refuse_pinEn (why : RefusedBecause) : (s.refuse why).pinEn = s.pinEn := rfl
@[simp] theorem State.refuse_twoWire (why : RefusedBecause) :
    (s.refuse why).twoWire = s.twoWire := rfl
@[simp] theorem State.refuse_numLines (why : RefusedBecause) :
    (s.refuse why).numLines = s.numLines := rfl
@[simp] theorem State.refuse_font (why : RefusedBecause) : (s.refuse why).font = s.font := rfl
@[simp] theorem State.refuse_dctrl (why : RefusedBecause) : (s.refuse why).dctrl = s.dctrl := rfl
@[simp] theorem State.refuse_emode (why : RefusedBecause) : (s.refuse why).emode = s.emode := rfl
@[simp] theorem State.refuse_fset (why : RefusedBecause) : (s.refuse why).fset = s.fset := rfl
@[simp] theorem State.refuse_phase (why : RefusedBecause) : (s.refuse why).phase = s.phase := rfl
@[simp] theorem State.refuse_seq (why : RefusedBecause) : (s.refuse why).seq = s.seq := rfl
@[simp] theorem State.refuse_inputs (why : RefusedBecause) : (s.refuse why).inputs = s.inputs := rfl
@[simp] theorem State.refuse_trace (why : RefusedBecause) : (s.refuse why).trace = s.trace := rfl
@[simp] theorem State.refuse_completions (why : RefusedBecause) :
    (s.refuse why).completions = s.completions ++ [⟨0, .refused why⟩] := rfl
@[simp] theorem State.refuse_resets (why : RefusedBecause) : (s.refuse why).resets = s.resets := rfl

/-! ### `applyReset` -/

@[simp] theorem State.applyReset_pinData :
    s.applyReset.pinData = Config.unspecified .pinData (s.resets + 1) := rfl
@[simp] theorem State.applyReset_pinClk :
    s.applyReset.pinClk = Config.unspecified .pinClk (s.resets + 1) := rfl
@[simp] theorem State.applyReset_pinEn :
    s.applyReset.pinEn = Config.unspecified .pinEn (s.resets + 1) := rfl
@[simp] theorem State.applyReset_twoWire :
    s.applyReset.twoWire = unspecifiedBit .twoWire (s.resets + 1) := rfl
@[simp] theorem State.applyReset_numLines :
    s.applyReset.numLines = unspecifiedCount (s.resets + 1) := rfl
@[simp] theorem State.applyReset_font :
    s.applyReset.font = unspecifiedBit .font (s.resets + 1) := rfl
@[simp] theorem State.applyReset_dctrl :
    s.applyReset.dctrl = Config.unspecified .dctrl (s.resets + 1) := rfl
@[simp] theorem State.applyReset_emode :
    s.applyReset.emode = Config.unspecified .emode (s.resets + 1) := rfl
@[simp] theorem State.applyReset_fset :
    s.applyReset.fset = Config.unspecified .fset (s.resets + 1) := rfl
@[simp] theorem State.applyReset_phase : s.applyReset.phase = .uninit := rfl
@[simp] theorem State.applyReset_seq : s.applyReset.seq = .idle := rfl
@[simp] theorem State.applyReset_inputs : s.applyReset.inputs = s.inputs := rfl
@[simp] theorem State.applyReset_trace : s.applyReset.trace = s.trace := rfl
@[simp] theorem State.applyReset_completions : s.applyReset.completions = s.completions := rfl
@[simp] theorem State.applyReset_resets : s.applyReset.resets = s.resets + 1 := rfl

end Sys2Proof.Machine
end

