-- ==== Sys2Proof/Laws/Ops.lean ====
section
/-! SUPPORT. One lemma per shared operation that says everything it does. Every sending operation
appends a known list of events to the trace and changes nothing else (R121 "writes no state"); the
events depend on the pins, the two-wire flag and the parameters only. -/

namespace Sys2Proof.Machine

/-- Append a list of events: what every sending operation does. -/
def State.emits (es : List Event) (s : State) : State := { s with trace := s.trace ++ es }

section emits
variable (s : State) (es fs : List Event)

@[simp] theorem State.emits_pinData : (s.emits es).pinData = s.pinData := rfl
@[simp] theorem State.emits_pinClk : (s.emits es).pinClk = s.pinClk := rfl
@[simp] theorem State.emits_pinEn : (s.emits es).pinEn = s.pinEn := rfl
@[simp] theorem State.emits_twoWire : (s.emits es).twoWire = s.twoWire := rfl
@[simp] theorem State.emits_numLines : (s.emits es).numLines = s.numLines := rfl
@[simp] theorem State.emits_font : (s.emits es).font = s.font := rfl
@[simp] theorem State.emits_dctrl : (s.emits es).dctrl = s.dctrl := rfl
@[simp] theorem State.emits_emode : (s.emits es).emode = s.emode := rfl
@[simp] theorem State.emits_fset : (s.emits es).fset = s.fset := rfl
@[simp] theorem State.emits_phase : (s.emits es).phase = s.phase := rfl
@[simp] theorem State.emits_seq : (s.emits es).seq = s.seq := rfl
@[simp] theorem State.emits_inputs : (s.emits es).inputs = s.inputs := rfl
@[simp] theorem State.emits_trace : (s.emits es).trace = s.trace ++ es := rfl
@[simp] theorem State.emits_completions : (s.emits es).completions = s.completions := rfl
@[simp] theorem State.emits_resets : (s.emits es).resets = s.resets := rfl

@[simp] theorem State.emits_nil : s.emits [] = s := by
  simp [State.emits]

@[simp] theorem State.emits_emits : (s.emits es).emits fs = s.emits (es ++ fs) := by
  simp [State.emits]

end emits

variable (p : Config) (s : State)

theorem State.emit_eq (e : Event) : s.emit e = s.emits [e] := rfl

theorem State.wait_eq (us : Nat) : s.wait us = s.emits (waitEvents us) := by
  unfold State.wait waitEvents
  split <;> simp [State.emit_eq]

/-- `FrameTx` (R120). -/
theorem State.frameTx_eq (f : Byte) : s.frameTx f = s.emits (s.frameEvents f) := by
  unfold State.frameTx State.preClear State.frameEvents
  split <;> simp [State.driveEnable, State.shiftOut, State.emit_eq, State.wait, Config.pulseUs]

section events
variable (es : List Event)

@[simp] theorem State.frameEvents_emits (f : Byte) :
    (s.emits es).frameEvents f = s.frameEvents f := rfl

@[simp] theorem State.sendEvents_emits (value : Byte) (isData : Bool) :
    (s.emits es).sendEvents value isData = s.sendEvents value isData := rfl

@[simp] theorem State.nibbleEvents_emits (value : Byte) :
    (s.emits es).nibbleEvents p value = s.nibbleEvents p value := rfl

@[simp] theorem State.rowsEvents_emits (rows : List Byte) :
    (s.emits es).rowsEvents rows = s.rowsEvents rows := rfl

@[simp] theorem Source.value_emits (src : Source) : src.value p (s.emits es) = src.value p s := by
  cases src <;> rfl

end events

/-- `Send` (R121). -/
theorem State.send_eq (value : Byte) (isData : Bool) :
    s.send value isData = s.emits (s.sendEvents value isData) := by
  simp [State.send, State.frameTx_eq, State.wait_eq, State.sendEvents, waitEvents, Config.settleUs]

/-- `SendNibble` (R122). -/
theorem State.sendNibble_eq (value : Byte) :
    s.sendNibble p value = s.emits (s.nibbleEvents p value) := by
  simp [State.sendNibble, State.frameTx_eq, State.wait_eq, State.nibbleEvents]

/-- A send of one of the block's own bytes. -/
theorem State.sendSource_eq (src : Source) (isData : Bool) :
    s.sendSource p src isData = s.emits (s.sendEvents (src.value p s) isData) :=
  s.send_eq _ _

/-- The data bytes of a glyph (R146). -/
theorem State.sendRows_eq (rows : List Byte) : s.sendRows p rows = s.emits (s.rowsEvents rows) := by
  induction rows generalizing s with
  | nil => simp [State.sendRows, State.rowsEvents]
  | cons row rest ih => simp [State.sendRows, ih, State.sendSource_eq, Source.value, State.rowsEvents]

section maskWrites
variable (value : Byte) (isData : Bool)

@[simp] theorem State.sendEvents_updateDctrl (f : DispFlag) (on : Bool) :
    (s.updateDctrl p f on).sendEvents value isData = s.sendEvents value isData := rfl

@[simp] theorem State.sendEvents_updateEmode (f : EntryFlag) (on : Bool) :
    (s.updateEmode p f on).sendEvents value isData = s.sendEvents value isData := rfl

@[simp] theorem State.sendEvents_initDctrl :
    (s.initDctrl p).sendEvents value isData = s.sendEvents value isData := rfl

@[simp] theorem State.sendEvents_initEmode :
    (s.initEmode p).sendEvents value isData = s.sendEvents value isData := rfl

end maskWrites

/-- The display-control operations (R160): the mask write, then one send of the whole byte. -/
theorem displayMode_eq (f : DispFlag) (on : Bool) : displayMode p f on s =
    (s.updateDctrl p f on).emits
      (s.sendEvents (compose p.cmd.dispCtrl (s.updateDctrl p f on).dctrl) false) := by
  simp [displayMode, State.sendSource_eq, Source.value]

/-- The entry-mode operations (R160). -/
theorem entryMode_eq (f : EntryFlag) (on : Bool) : entryMode p f on s =
    (s.updateEmode p f on).emits
      (s.sendEvents (compose p.cmd.entryMode (s.updateEmode p f on).emode) false) := by
  simp [entryMode, State.sendSource_eq, Source.value]

/-- An operation accepted in `READY` only never stops the machine: it is performed or refused. -/
theorem ifReady_of_ready {ret : Byte} {body : State → State} (h : s.phase = .ready) :
    ifReady s ret body = .next ((body s).complete ret) := by
  simp [ifReady, h]

theorem ifReady_of_uninit {ret : Byte} {body : State → State} (h : s.phase = .uninit) :
    ifReady s ret body = .next (s.refuse .uninitialized) := by
  simp [ifReady, h]

end Sys2Proof.Machine
end

