-- ==== Sys2Proof/Laws/Observer.lean ====
section
/-! SUPPORT. The reading of a trace, piece by piece: a trace is read in parts, a wait changes nothing,
a whole frame is one strobe of that frame. -/

namespace Sys2Proof.Machine

variable (t : CommandTable) (mixed : Bool) (en : PinId) (r : Reader)

/-- A trace is read part by part. -/
theorem Reader.read_append (es fs : List Event) :
    r.read t mixed en (es ++ fs) = (r.read t mixed en es).read t mixed en fs := by
  simp [Reader.read]

/-- Waiting is not seen by the shift register or the controller. -/
theorem Reader.read_wait (us : Nat) : r.read t mixed en (waitEvents us) = r := by
  unfold waitEvents
  split <;> simp [Reader.read, Reader.event]

theorem Reader.strobe_strobes : (r.strobe t mixed).strobes = r.strobes ++ [r.sr] := by
  unfold Reader.strobe
  split <;> simp [Reader.take]

theorem Reader.strobe_sr : (r.strobe t mixed).sr = r.sr := by
  unfold Reader.strobe
  split <;> simp [Reader.take]

/-- The interface after a strobe of the frame `f` (R59). -/
def Interface.afterFrame (f : Byte) : Interface → Interface
  | .eightBit => Interface.afterByte t ⟨frameNibble f ++ 0#4, frameIsData f⟩ .eightBit
  | .fourHigh => .fourLow f
  | .fourLow upper =>
      Interface.afterByte t ⟨frameNibble upper ++ frameNibble f,
        if frameIsData upper == frameIsData f then frameIsData f else mixed⟩ .fourHigh

/-- Where a strobe leaves the interface depends on the interface and the frame only. -/
theorem Reader.strobe_iface : (r.strobe t mixed).iface = r.iface.afterFrame t mixed r.sr := by
  unfold Reader.strobe
  split <;> rename_i h <;> simp [Reader.take, h, Interface.afterFrame]

/-- A frame read with the enable line at rest is one strobe of that frame (R58, R120). -/
theorem Reader.read_frame (s : State) (f : Byte) (h : r.raised = false) :
    r.read t mixed s.pinEn (s.frameEvents f) =
      { ({ r with sr := f, raised := true } : Reader).strobe t mixed with raised := false } := by
  unfold State.frameEvents
  split <;> simp [Reader.read, Reader.event, h]

/-- The delay of a trace is the sum of its parts' (R215). -/
theorem totalDelay_append (es fs : List Event) :
    totalDelay (es ++ fs) = totalDelay es + totalDelay fs := by
  induction es with
  | nil => simp [totalDelay]
  | cons e es ih => cases e <;> simp [totalDelay, ih, Nat.add_assoc]

/-- The bytes shifted out of a trace are those of its parts. -/
theorem shiftedBytes_append (es fs : List Event) :
    shiftedBytes (es ++ fs) = shiftedBytes es ++ shiftedBytes fs := by
  induction es with
  | nil => rfl
  | cons e es ih => cases e <;> simp [shiftedBytes, ih]

end Sys2Proof.Machine
end

