-- ==== Sys2Proof/Laws/PerInstr.lean ====
section
/-! SUPPORT. The per-operation family `EncodedOp`: the encoded word of an operation carries its op code,
and the op code is none of the reserved ones (R72, R73). -/

namespace Sys2Proof.Laws.EncodedOp

/-- The op field of the encoded word is the operation's op code, below `0x13`. -/
def Statement (i : Instr) : Prop := reqOp (encode i) = i.opcode ∧ i.opcode.toNat < 0x13

theorem init (d c e : PinId) (lines font : Byte) :
    Statement (.init d c e lines font) := ⟨reqOp_encode _, by simp [Instr.opcode]⟩

theorem clear : Statement .clear := ⟨reqOp_encode _, by simp [Instr.opcode]⟩

theorem home : Statement .home := ⟨reqOp_encode _, by simp [Instr.opcode]⟩

theorem setCursor (col row : Byte) : Statement (.setCursor col row) := ⟨reqOp_encode _, by simp [Instr.opcode]⟩

theorem display : Statement .display := ⟨reqOp_encode _, by simp [Instr.opcode]⟩

theorem noDisplay : Statement .noDisplay := ⟨reqOp_encode _, by simp [Instr.opcode]⟩

theorem cursor : Statement .cursor := ⟨reqOp_encode _, by simp [Instr.opcode]⟩

theorem noCursor : Statement .noCursor := ⟨reqOp_encode _, by simp [Instr.opcode]⟩

theorem blink : Statement .blink := ⟨reqOp_encode _, by simp [Instr.opcode]⟩

theorem noBlink : Statement .noBlink := ⟨reqOp_encode _, by simp [Instr.opcode]⟩

theorem scrollLeft : Statement .scrollLeft := ⟨reqOp_encode _, by simp [Instr.opcode]⟩

theorem scrollRight : Statement .scrollRight := ⟨reqOp_encode _, by simp [Instr.opcode]⟩

theorem shiftLeft : Statement .shiftLeft := ⟨reqOp_encode _, by simp [Instr.opcode]⟩

theorem shiftRight : Statement .shiftRight := ⟨reqOp_encode _, by simp [Instr.opcode]⟩

theorem shiftInc : Statement .shiftInc := ⟨reqOp_encode _, by simp [Instr.opcode]⟩

theorem shiftDec : Statement .shiftDec := ⟨reqOp_encode _, by simp [Instr.opcode]⟩

theorem createChar (location g0 g1 g2 g3 g4 g5 g6 g7 : Byte) :
    Statement (.createChar location g0 g1 g2 g3 g4 g5 g6 g7) := ⟨reqOp_encode _, by simp [Instr.opcode]⟩

theorem write (byte : Byte) : Statement (.write byte) := ⟨reqOp_encode _, by simp [Instr.opcode]⟩

theorem command (byte : Byte) : Statement (.command byte) := ⟨reqOp_encode _, by simp [Instr.opcode]⟩

end Sys2Proof.Laws.EncodedOp
end

