-- ==== Sys2Proof/Laws/Step.lean ====
section
/-! SUPPORT. What one step can do, once for every host input, and what one sequencer step can change. -/

namespace Sys2Proof.Machine

variable {p : Config} {run : Runner} {s t : State} {w : ReqWord} {rest : List HostInput} {i : Instr}
  {n : Nat}

theorem step_idle (h : s.seq = .idle) : step s = stepIdle exec s := by
  unfold step; rw [h]

theorem step_running (h : s.seq = .running i n) : step s = .next (stepRunning s) := by
  unfold step; rw [h]

theorem stepWith_idle (h : s.seq = .idle) : stepWith p s = stepIdle (execWith p) s := by
  unfold stepWith; rw [h]

theorem stepWith_running (h : s.seq = .running i n) : stepWith p s = .next (stepRunning s p) := by
  unfold stepWith; rw [h]

theorem stepIdle_nothing (hin : s.inputs = []) : stepIdle run s = .next s := by
  unfold stepIdle; rw [hin]

theorem stepIdle_request (hin : s.inputs = .request w :: rest) :
    stepIdle run s = serve run w { s with inputs := rest } := by
  unfold stepIdle; rw [hin]

theorem stepIdle_begin (hin : s.inputs = .begin w :: rest) :
    stepIdle run s = .next (beginRequest w { s with inputs := rest }) := by
  unfold stepIdle; rw [hin]

theorem serve_ok (h : decode w = .ok i) : serve run w s = run i s := by
  unfold serve; rw [h]

theorem serve_error {e : DecodeError} (h : decode w = .error e) :
    serve run w s = .next (s.refuse .reservedOp) := by
  unfold serve; rw [h]

/-- What a step with the sequencer idle can do: one case per host input, and the idle stutter. -/
theorem stepIdle_cases (h : stepIdle run s = .next t) :
    (s.inputs = [] ∧ t = s) ∨
    (∃ w rest i, s.inputs = .request w :: rest ∧ decode w = .ok i ∧
      run i { s with inputs := rest } = .next t) ∨
    (∃ w rest e, s.inputs = .request w :: rest ∧ decode w = .error e ∧
      t = State.refuse .reservedOp { s with inputs := rest }) ∨
    (∃ w rest, s.inputs = .begin w :: rest ∧ t = beginRequest w { s with inputs := rest }) ∨
    (∃ rest, s.inputs = .wait :: rest ∧ t = { s with inputs := rest }) ∨
    (∃ rest, s.inputs = .reset :: rest ∧ t = State.applyReset { s with inputs := rest }) ∨
    (∃ w rest, s.inputs = .resetWithRequest w :: rest ∧
      t = State.applyReset { s with inputs := rest }) := by
  unfold stepIdle at h
  split at h
  case h_1 hin => cases h; exact .inl ⟨hin, rfl⟩
  case h_2 w rest hin =>
    unfold serve at h
    split at h
    case h_1 i hd => exact .inr (.inl ⟨w, rest, i, hin, hd, h⟩)
    case h_2 e hd => cases h; exact .inr (.inr (.inl ⟨w, rest, e, hin, hd, rfl⟩))
  case h_3 w rest hin => cases h; exact .inr (.inr (.inr (.inl ⟨w, rest, hin, rfl⟩)))
  case h_4 rest hin => cases h; exact .inr (.inr (.inr (.inr (.inl ⟨rest, hin, rfl⟩))))
  case h_5 rest hin => cases h; exact .inr (.inr (.inr (.inr (.inr (.inl ⟨rest, hin, rfl⟩)))))
  case h_6 w rest hin => cases h; exact .inr (.inr (.inr (.inr (.inr (.inr ⟨w, rest, hin, rfl⟩)))))

/-- What a step with an operation in flight can do: reset, or a tick, with a `wait` consumed or not. -/
theorem stepRunning_cases (s : State) (p : Config) :
    (∃ rest, (s.inputs = .reset :: rest ∨ ∃ w, s.inputs = .resetWithRequest w :: rest) ∧
      stepRunning s p = State.applyReset { s with inputs := rest }) ∨
    (∃ rest, s.inputs = .wait :: rest ∧ stepRunning s p = State.tick { s with inputs := rest } p) ∨
    stepRunning s p = s.tick p := by
  unfold stepRunning
  split
  case h_1 rest hin => exact .inl ⟨rest, .inl hin, rfl⟩
  case h_2 w rest hin => exact .inl ⟨rest, .inr ⟨w, hin⟩, rfl⟩
  case h_3 rest hin => exact .inr (.inl ⟨rest, hin, rfl⟩)
  all_goals exact .inr (.inr rfl)

/-- One sequencer step appends to the trace and to the completions and leaves the inputs and the
reset count alone. -/
theorem perform_appends (p : Config) (m : Micro) (s : State) :
    (∃ es, (m.perform p s).trace = s.trace ++ es) ∧
    ((m.perform p s).completions = s.completions ∨
      ∃ c, (m.perform p s).completions = s.completions ++ [c]) ∧
    (m.perform p s).inputs = s.inputs ∧ (m.perform p s).resets = s.resets := by
  cases m
  case preClear => simp only [Micro.perform, State.preClear]; split <;> simp [State.shiftOut]
  case wait => simp only [Micro.perform, State.wait]; split <;> simp
  case nibbleSettle => simp only [Micro.perform, State.wait]; split <;> simp
  all_goals simp [Micro.perform, State.driveEnable, State.shiftOut]

/-- A tick in flight performs the step at the position. -/
theorem tick_running {m : Micro} (h : s.seq = .running i n) (hm : (microcode i)[n]? = some m) :
    s.tick p = m.perform p { s with seq := .running i (n + 1) } := by
  unfold State.tick; rw [h]; simp only [hm]

/-- A tick past the end of an operation goes idle. -/
theorem tick_past_end (h : s.seq = .running i n) (hm : (microcode i)[n]? = none) :
    s.tick p = { s with seq := .idle } := by
  unfold State.tick; rw [h]; simp only [hm]

end Sys2Proof.Machine
end

