-- ==== Sys2Proof/Laws/Sequencer.lean ====
section
/-! SUPPORT. Lists of sequencer steps: what the steps of each internal procedure amount to, and that
only the completion touches `SEQ`. -/

namespace Sys2Proof.Machine

/-- A list of sequencer steps, one after the other. -/
def performAll (p : Config) (ms : List Micro) (s : State) : State :=
  ms.foldl (fun u m => m.perform p u) s

variable (p : Config)

@[simp] theorem performAll_nil (s : State) : performAll p [] s = s := rfl

@[simp] theorem performAll_cons (m : Micro) (ms : List Micro) (s : State) :
    performAll p (m :: ms) s = performAll p ms (m.perform p s) := rfl

@[simp] theorem performAll_append (ms ns : List Micro) (s : State) :
    performAll p (ms ++ ns) s = performAll p ns (performAll p ms s) := by
  simp [performAll]

/-- The steps of `FrameTx` (R120). -/
theorem performAll_frame (src : Source) (part : FramePart) (s : State) :
    performAll p (microFrame src part) s = s.frameTx (part.frame (src.value p s)) := by
  have h : src.value p (s.preClear.driveEnable .low) = src.value p s := by
    unfold State.preClear
    split <;> simp [State.driveEnable, State.shiftOut, State.emit_eq]
  simp [microFrame, Micro.perform, State.frameTx, h]

/-- The steps of `Send` (R121). -/
theorem performAll_send (src : Source) (isData : Bool) (s : State) :
    performAll p (microSend src isData) s = s.sendSource p src isData := by
  simp [microSend, performAll_frame, Micro.perform, State.sendSource, State.send, FramePart.frame,
    State.frameTx_eq]

/-- The steps of `SendNibble` (R122). -/
theorem performAll_nibble (src : Source) (s : State) :
    performAll p (microNibble src) s = s.sendNibble p (src.value p s) := by
  simp [microNibble, performAll_frame, Micro.perform, State.sendNibble, FramePart.frame,
    State.frameTx_eq]

/-- The steps of the data bytes of a glyph (R146). -/
theorem performAll_rows (rows : List Byte) (s : State) :
    performAll p (rows.flatMap fun g => microSend (.raw g) true) s = s.sendRows p rows := by
  induction rows generalizing s with
  | nil => rfl
  | cons row rest ih => simp [performAll_send, ih, State.sendRows]

/-- Set the sequencer position alone. -/
def State.setSeq (q : Seq) (s : State) : State := { s with seq := q }

/-- Is the step the completion? -/
def Micro.isComplete : Micro → Bool
  | .complete _ => true
  | .configure .. | .pinMode _ | .preClear | .driveEnable _ | .shiftFrame .. | .wait _
  | .nibbleSettle | .updateDctrl .. | .updateEmode .. | .initDctrl | .initEmode | .becomeReady => false

/-- Every step but the completion neither reads nor writes `SEQ`. -/
theorem perform_setSeq {m : Micro} (h : m.isComplete = false) (q : Seq) (s : State) :
    m.perform p (s.setSeq q) = (m.perform p s).setSeq q := by
  cases m with
  | complete r => simp [Micro.isComplete] at h
  | pinMode role => cases role <;> rfl
  | preClear =>
    change State.preClear _ = State.setSeq q (State.preClear s)
    unfold State.preClear
    by_cases h : s.twoWire = true
    · rw [if_pos h, if_pos (show (s.setSeq q).twoWire = true from h)]; rfl
    · rw [if_neg h, if_neg (show ¬(s.setSeq q).twoWire = true from h)]
  | shiftFrame src part => cases src <;> rfl
  | wait us =>
    change State.wait us _ = State.setSeq q (State.wait us s)
    unfold State.wait; split <;> rfl
  | nibbleSettle =>
    change State.wait p.nibbleSettleUs _ = State.setSeq q (State.wait _ s)
    unfold State.wait; split <;> rfl
  | _ => rfl

/-- The steps of an operation end in its completion, which stands nowhere else. -/
theorem microcode_eq (i : Instr) : ∃ ms ret, microcode i = ms ++ [.complete ret] ∧
    ms.all (fun m => !m.isComplete) = true := by
  cases i
  case init d c e lines font =>
    exact ⟨InitState.all.flatMap (InitState.steps d c e lines font) ++ [.becomeReady], 0,
      by simp [microcode], rfl⟩
  case clear => exact ⟨microSend .clear false ++ [.wait Config.longUs], 0, by simp [microcode], rfl⟩
  case home => exact ⟨microSend .home false ++ [.wait Config.longUs], 0, by simp [microcode], rfl⟩
  all_goals exact ⟨_, _, rfl, rfl⟩

/-- Ticks add up from the last one. -/
theorem ticks_succ (k : Nat) (s : State) : s.ticks (k + 1) p = (s.ticks k p).tick p := by
  induction k generalizing s with
  | zero => rfl
  | succ k ih => exact ih (s.tick p)

/-- Any list of steps only appends to the trace. -/
theorem performAll_trace (ms : List Micro) (s : State) : s.trace <+: (performAll p ms s).trace := by
  induction ms generalizing s with
  | nil => exact List.prefix_rfl
  | cons m ms ih =>
    obtain ⟨es, he⟩ := (perform_appends p m s).1
    exact List.IsPrefix.trans ⟨es, he.symm⟩ (ih _)

end Sys2Proof.Machine
end

