-- ==== Sys2Proof/Tests/Slice0.lean ====
section
/-! SUPPORT. Tests. Expected values are those of `spec/95_test_vectors.md` (V and P numbers), of the
rules' own examples, or worked out by hand from the rules; none is the model's own answer. -/

namespace Sys2Proof.Tests

open Sys2Proof.Machine Sys2Proof.Claims

/-! ## Small states -/

/-- The registers after `INIT d, c, e, 2, 0` with the test-bench pins (V20), nothing emitted yet. -/
def post : State where
  pinData := 2
  pinClk := 3
  pinEn := 4
  twoWire := false
  numLines := 2
  font := false
  dctrl := 0x04
  emode := 0x02
  fset := 0x08
  phase := .ready
  seq := .idle
  inputs := []
  trace := []
  completions := []
  resets := 0

/-- The registers after `INIT d, c, TWO_WIRE_SENTINEL, 1, 1` (V22). -/
def twoWirePost : State :=
  { post with pinEn := 2, twoWire := true, numLines := 1, font := true, fset := 0x04 }

/-- A one-line configuration (V30). -/
def oneLine : State := { post with numLines := 1, fset := 0x00 }

/-- Not initialized. -/
def blank : State := { post with phase := .uninit }

/-- `post` with a mask changed. -/
def withDctrl (m : Byte) : State := { post with dctrl := m }
def withEmode (m : Byte) : State := { post with emode := m }

/-- The request `w` on the port of `s`, taken whole. -/
def asking (w : ReqWord) (s : State) : State := { s with inputs := [.request w] }

/-- The bytes shifted out by a run that answers a next state. -/
def bytes : Host.Outcome State Fault Refusal → Option (List Byte)
  | .next t => some (shiftedBytes t.trace)
  | .fault _ => none
  | .refused _ => none

/-- The completion values. -/
def rets : Host.Outcome State Fault Refusal → Option (List Byte)
  | .next t => some (t.completions.map Completion.ret)
  | .fault _ => none
  | .refused _ => none

/-- `DCTRL` and the bytes shifted out. -/
def dctrlAndBytes : Host.Outcome State Fault Refusal → Option (Byte × List Byte)
  | .next t => some (t.dctrl, shiftedBytes t.trace)
  | .fault _ => none
  | .refused _ => none

/-- `EMODE` and the bytes shifted out. -/
def emodeAndBytes : Host.Outcome State Fault Refusal → Option (Byte × List Byte)
  | .next t => some (t.emode, shiftedBytes t.trace)
  | .fault _ => none
  | .refused _ => none

/-- Number of events and total delay. -/
def size : Host.Outcome State Fault Refusal → Option (Nat × Nat)
  | .next t => some (t.trace.length, totalDelay t.trace)
  | .fault _ => none
  | .refused _ => none

/-- The whole trace. -/
def events : Host.Outcome State Fault Refusal → Option (List Event)
  | .next t => some t.trace
  | .fault _ => none
  | .refused _ => none

/-! ## Well-formedness: one ill-formed table for each check -/

def sameDispBits : CommandTable := { CommandTable.hd44780 with dcCursor := 0x04 }
def sameEntryBits : CommandTable := { CommandTable.hd44780 with emShiftInc := 0x02 }
def twoBitFlag : CommandTable := { CommandTable.hd44780 with fs2Line := 0x18 }
def twoBitClear : CommandTable := { CommandTable.hd44780 with clear := 0x03 }
def lowBase : CommandTable := { CommandTable.hd44780 with setDdram := 0x40 }

theorem test_wf_refuses_equal_display_flags :
    sameDispBits.dispFlagsOk = false ∧ sameDispBits.wellFormed = false := by decide
theorem test_wf_refuses_equal_entry_flags :
    sameEntryBits.entryFlagsOk = false ∧ sameEntryBits.wellFormed = false := by decide
theorem test_wf_refuses_two_bit_flag :
    twoBitFlag.funcFlagsOk = false ∧ twoBitFlag.wellFormed = false := by decide
theorem test_wf_refuses_base_in_operand :
    lowBase.basesOk = false ∧ lowBase.wellFormed = false := by decide
theorem test_wf_refuses_two_bit_command :
    twoBitClear.commandBitsOk = false ∧ twoBitClear.wellFormed = false := by decide

/-! ## Decoding: every operation from a word written out from R70 to R72 -/

theorem test_decode_init : decode 0x00020002030400000000 = .ok (.init 2 3 4 2 0) := by decide
theorem test_decode_clear : decode 0x01000000000000000000 = .ok .clear := by decide
theorem test_decode_home : decode 0x02000000000000000000 = .ok .home := by decide
theorem test_decode_setCursor : decode 0x03050100000000000000 = .ok (.setCursor 5 1) := by decide
theorem test_decode_display : decode 0x04000000000000000000 = .ok .display := by decide
theorem test_decode_noDisplay : decode 0x05000000000000000000 = .ok .noDisplay := by decide
theorem test_decode_cursor : decode 0x06000000000000000000 = .ok .cursor := by decide
theorem test_decode_noCursor : decode 0x07000000000000000000 = .ok .noCursor := by decide
theorem test_decode_blink : decode 0x08000000000000000000 = .ok .blink := by decide
theorem test_decode_noBlink : decode 0x09000000000000000000 = .ok .noBlink := by decide
theorem test_decode_scrollLeft : decode 0x0A000000000000000000 = .ok .scrollLeft := by decide
theorem test_decode_scrollRight : decode 0x0B000000000000000000 = .ok .scrollRight := by decide
theorem test_decode_shiftLeft : decode 0x0C000000000000000000 = .ok .shiftLeft := by decide
theorem test_decode_shiftRight : decode 0x0D000000000000000000 = .ok .shiftRight := by decide
theorem test_decode_shiftInc : decode 0x0E000000000000000000 = .ok .shiftInc := by decide
theorem test_decode_shiftDec : decode 0x0F000000000000000000 = .ok .shiftDec := by decide
theorem test_decode_createChar : decode 0x1001000A1F1F0E040000 =
    .ok (.createChar 1 0x00 0x0A 0x1F 0x1F 0x0E 0x04 0x00 0x00) := by decide
theorem test_decode_write : decode 0x11410000000000000000 = .ok (.write 0x41) := by decide
theorem test_decode_command : decode 0x125A0000000000000000 = .ok (.command 0x5A) := by decide

/-- V62: unused fields are ignored. -/
theorem test_decode_ignores_unused :
    decode 0x01FFFFFFFFFFFFFFFFFF = .ok .clear ∧
    decode 0x030501AABBCCDDEEFF11 = .ok (.setCursor 5 1) ∧
    decode 0x1141FFFFFFFFFFFFFFFF = .ok (.write 0x41) := by decide

/-- V61: reserved op codes, both ends of the range and one inside. -/
theorem test_decode_refuses_reserved :
    decode 0x13000000000000000000 = .error (.reservedOp 0x13) ∧
    decode 0x80010200000000000000 = .error (.reservedOp 0x80) ∧
    decode 0xFF000000000000000000 = .error (.reservedOp 0xFF) := by decide

/-- Ten bytes are a request, nine and eleven are none (R73). -/
theorem test_decode_bytes :
    decodeBytes [0x11, 0x41, 0, 0, 0, 0, 0, 0, 0, 0] = .ok (.write 0x41) ∧
    decodeBytes [0x11, 0x41, 0, 0, 0, 0, 0, 0, 0] = .error (.wrongLength 9) ∧
    decodeBytes [0x11, 0x41, 0, 0, 0, 0, 0, 0, 0, 0, 0] = .error (.wrongLength 11) := by decide

/-- The words of P1, P4 and V20, encoded. -/
theorem test_encode :
    encode (.init 2 3 4 2 0) = 0x00020002030400000000 ∧
    encode (.setCursor 3 1) = 0x03030100000000000000 ∧ encode (.write 0x48) = 0x11480000000000000000 ∧
    encode (.createChar 9 0x00 0x0A 0x1F 0x1F 0x0E 0x04 0x00 0x00) = 0x1009000A1F1F0E040000 := by
  decide

/-- The table's bit numbers are those of the request word. -/
theorem test_decode_table_word :
    decodeTableWord 80 0x0E000000000000000000 = some .shiftInc ∧
    decodeTableWord 80 0x13000000000000000000 = none := by decide

/-! ## Frames (V1, V2) -/

theorem test_frames :
    upperFrame 0xA5 true = 0xD4 ∧ lowerFrame 0xA5 true = 0xAC ∧
    upperFrame 0x5A false = 0xA8 ∧ lowerFrame 0x5A false = 0xD0 ∧
    upperFrame 0x80 true = 0xC4 ∧ lowerFrame 0x08 true = 0xC4 ∧
    nibbleFrame 0x30 = 0x98 ∧ nibbleFrame 0x3F = 0x98 ∧ nibbleFrame 0xFF = 0xF8 := by decide

/-! ## INIT -/

/-- V20, from reset. -/
theorem test_init_three_wire :
    bytes (step (State.reset.withFetchWord 80 0x00020002030400000000)) =
      some [0x98, 0x98, 0x98, 0x90, 0x90, 0xC0, 0x80, 0xE0, 0x80, 0x88, 0x80, 0xB0, 0x80, 0x90] ∧
    size (step (State.reset.withFetchWord 80 0x00020002030400000000)) = some (87, 59024) := by
  decide

set_option maxRecDepth 4000 in
/-- V22, from reset: two-wire, one line, 5×10. -/
theorem test_init_two_wire :
    bytes (step (State.reset.withFetchWord 80 0x0001010203FF00000000)) =
      some [0x00, 0x98, 0x00, 0x98, 0x00, 0x98, 0x00, 0x90, 0x00, 0x90, 0x00, 0xA0, 0x00, 0x80, 0x00,
        0xE0, 0x00, 0x80, 0x00, 0x88, 0x00, 0x80, 0x00, 0xB0, 0x00, 0x80, 0x00, 0x90] ∧
    size (step (State.reset.withFetchWord 80 0x0001010203FF00000000)) = some (101, 59024) := by
  decide

/-- V24: the corner values of `lines` and `font`; V26: the enable pin equal to the data pin. -/
theorem test_init_configuration :
    (State.configure .block 2 3 4 0 1 post).numLines = 1 ∧ (State.configure .block 2 3 4 0 1 post).fset = 0x04 ∧
    (State.configure .block 2 3 4 255 255 post).numLines = 2 ∧
    (State.configure .block 2 3 4 255 255 post).fset = 0x0C ∧
    (State.configure .block 2 3 2 2 0 post).twoWire = false ∧
    (State.configure .block 2 3 0xFF 2 0 post).pinEn = 2 := by decide

/-- Another block (D4, U14): the sentinel 0x04 and no settle after a nibble, so INIT with pin 4 is
two-wire and the wait is no event. 97 = 101 − 4 events, 58864 = 59024 − 4 · 40 microseconds (R215). -/
def otherBlock : Config := { Config.block with twoWireSentinel := 0x04, nibbleSettleUs := 0 }

set_option maxRecDepth 4000 in
theorem test_init_other_parameters :
    size (stepWith otherBlock (State.reset.withFetchWord 80 0x00020002030400000000)) =
      some (97, 58864) := by decide

/-! ## Framing -/

/-- V14, the whole trace. -/
theorem test_write_trace : events (exec (.write 0x41) post) =
    some [.pinLevel 4 .low, .shiftOut 2 3 0xA4, .pinLevel 4 .high, .delay 1, .pinLevel 4 .low,
      .pinLevel 4 .low, .shiftOut 2 3 0x8C, .pinLevel 4 .high, .delay 1, .pinLevel 4 .low,
      .delay 40] := by decide

theorem test_write_returns_one : rets (exec (.write 0x41) post) = some [1] := by decide

/-- V13, the whole trace in two-wire mode. -/
theorem test_command_two_wire : events (exec (.command 0x5A) twoWirePost) =
    some [.shiftOut 2 3 0x00, .pinLevel 2 .low, .shiftOut 2 3 0xA8, .pinLevel 2 .high, .delay 1,
      .pinLevel 2 .low, .shiftOut 2 3 0x00, .pinLevel 2 .low, .shiftOut 2 3 0xD0, .pinLevel 2 .high,
      .delay 1, .pinLevel 2 .low, .delay 40] := by decide

/-- V16: a raw clear gets no long wait and no mask changes. -/
theorem test_command_verbatim :
    size (exec (.command 0x01) post) = some (11, 42) ∧
    dctrlAndBytes (exec (.command 0x0F) post) = some (0x04, [0x80, 0xF8]) := by decide

/-! ## Display commands -/

theorem test_clear : bytes (exec .clear post) = some [0x80, 0x88] ∧
    size (exec .clear post) = some (12, 2042) := by decide
theorem test_home : bytes (exec .home post) = some [0x80, 0x90] ∧
    size (exec .home twoWirePost) = some (14, 2042) := by decide

/-- V30, V31: the row clamp at its boundaries. -/
theorem test_setCursor_rows :
    bytes (exec (.setCursor 5 0) oneLine) = some [0xC0, 0xA8] ∧
    bytes (exec (.setCursor 5 1) oneLine) = some [0xE0, 0xA8] ∧
    bytes (exec (.setCursor 5 2) oneLine) = some [0xC0, 0xA8] ∧
    bytes (exec (.setCursor 5 255) oneLine) = some [0xC0, 0xA8] ∧
    bytes (exec (.setCursor 5 0) post) = some [0xC0, 0xA8] ∧
    bytes (exec (.setCursor 5 1) post) = some [0xE0, 0xA8] ∧
    bytes (exec (.setCursor 5 2) post) = some [0xC8, 0xC8] ∧
    bytes (exec (.setCursor 5 3) post) = some [0xE0, 0xA8] ∧
    bytes (exec (.setCursor 5 255) post) = some [0xE0, 0xA8] := by decide

/-- V32: the column wraps. -/
theorem test_setCursor_columns :
    bytes (exec (.setCursor 0x7F 1) post) = some [0xD8, 0xF8] ∧
    bytes (exec (.setCursor 0xC0 1) post) = some [0xC0, 0x80] ∧
    bytes (exec (.setCursor 0xFF 0) post) = some [0xF8, 0xF8] := by decide

/-- V38 and the examples of R144, R145. -/
theorem test_scrollLeft : bytes (exec .scrollLeft post) = some [0x88, 0xC0] := by decide
theorem test_scrollRight : bytes (exec .scrollRight post) = some [0x88, 0xE0] := by decide

set_option maxRecDepth 4000 in
/-- V33. -/
theorem test_createChar : bytes (exec (.createChar 9 0x00 0x0A 0x1F 0x1F 0x0E 0x04 0x00 0x00) post) =
    some [0xA0, 0xC0, 0x84, 0x84, 0x84, 0xD4, 0x8C, 0xFC, 0x8C, 0xFC, 0x84, 0xF4, 0x84, 0xA4, 0x84,
      0x84, 0x84, 0x84, 0xC0, 0x80] := by decide

set_option maxRecDepth 4000 in
/-- V35: the glyph rows are not masked. -/
theorem test_createChar_unmasked :
    bytes (exec (.createChar 0 0xFF 0xE0 0x1F 0x80 0x01 0xAA 0x55 0x00) post) =
    some [0xA0, 0x80, 0xFC, 0xFC, 0xF4, 0x84, 0x8C, 0xFC, 0xC4, 0x84, 0x84, 0x8C, 0xD4, 0xD4, 0xAC,
      0xAC, 0x84, 0x84, 0xC0, 0x80] := by decide

/-! ## Mode registers (V41, V42) -/

theorem test_display : dctrlAndBytes (exec .display (withDctrl 0x03)) =
    some (0x07, [0x80, 0xF8]) := by decide
theorem test_noDisplay : dctrlAndBytes (exec .noDisplay (withDctrl 0x07)) =
    some (0x03, [0x80, 0xD8]) := by decide
theorem test_cursor : dctrlAndBytes (exec .cursor (withDctrl 0x05)) =
    some (0x07, [0x80, 0xF8]) := by decide
theorem test_noCursor : dctrlAndBytes (exec .noCursor (withDctrl 0x07)) =
    some (0x05, [0x80, 0xE8]) := by decide
theorem test_blink : dctrlAndBytes (exec .blink (withDctrl 0x06)) =
    some (0x07, [0x80, 0xF8]) := by decide
theorem test_noBlink : dctrlAndBytes (exec .noBlink (withDctrl 0x03)) =
    some (0x02, [0x80, 0xD0]) := by decide
theorem test_shiftLeft : emodeAndBytes (exec .shiftLeft (withEmode 0x01)) =
    some (0x03, [0x80, 0xB8]) := by decide
theorem test_shiftRight : emodeAndBytes (exec .shiftRight (withEmode 0x03)) =
    some (0x01, [0x80, 0xA8]) := by decide
theorem test_shiftInc : emodeAndBytes (exec .shiftInc (withEmode 0x02)) =
    some (0x03, [0x80, 0xB8]) := by decide
theorem test_shiftDec : emodeAndBytes (exec .shiftDec (withEmode 0x01)) =
    some (0x00, [0x80, 0xA0]) := by decide

/-! ## Refusal and reset (V60 to V64) -/

/-- V60, V61: a refused WRITE returns 0, nothing is emitted, in either phase. -/
theorem test_refusals :
    rets (step (State.reset.withFetchWord 80 0x11410000000000000000)) = some [0] ∧
    size (step (State.reset.withFetchWord 80 0x11410000000000000000)) = some (0, 0) ∧
    rets (step (post.withFetchWord 80 0x42010200000000000000)) = some [0] ∧
    size (step (post.withFetchWord 80 0x42010200000000000000)) = some (0, 0) := by decide

/-- V64: six ticks into `WRITE 0x41` (one of them the two-wire test, which emits nothing) the first
frame is done; reset keeps its five events and completes nothing. -/
theorem test_reset_inside_write :
    events (step { ({ post with seq := .running (.write 0x41) 0 }.ticks 6) with inputs := [.reset] }) =
      some [.pinLevel 4 .low, .shiftOut 2 3 0xA4, .pinLevel 4 .high, .delay 1, .pinLevel 4 .low] ∧
    rets (step { ({ post with seq := .running (.write 0x41) 0 }.ticks 6) with inputs := [.reset] }) =
      some [] := by decide

/-- An operation taken step by step stands at its first step, nothing emitted, nothing completed. -/
theorem test_begin_stands_at_first_step :
    step { post with inputs := [.begin 0x11410000000000000000] } =
      .next { post with seq := .running (.write 0x41) 0 } := rfl

/-- R10: splitting a wait conforms, shortening it does not. -/
theorem test_conforms :
    conforms [.pinLevel 4 .low, .delay 30, .delay 10] [.pinLevel 4 .low, .delay 40] = true ∧
    conforms [.pinLevel 4 .low, .delay 39] [.pinLevel 4 .low, .delay 40] = false ∧
    conforms [.pinMode 4, .delay 49999] [.pinMode 4, .delay 50000] = false ∧
    conforms [.shiftOut 2 3 0x98] [.shiftOut 2 3 0x90] = false := by decide

/-! ## Witnesses: states and operands that meet the hypotheses of each statement -/

theorem witness_ResetWinsAndAbandons :
    ({ post with seq := .running (.write 0x41) 3, inputs := [.reset] } : State).inputs =
      [.reset] ∧
    ({ post with inputs := [.resetWithRequest 0x01000000000000000000, .wait] } : State).inputs =
      [.resetWithRequest 0x01000000000000000000, .wait] := by decide

theorem witness_StepRunsDecodedRequest :
    (asking 0x11410000000000000000 post).seq = .idle ∧
    (asking 0x11410000000000000000 post).inputs = [.request 0x11410000000000000000] ∧
    decode 0x11410000000000000000 = .ok (.write 0x41) ∧
    decodeTableWord 80 0x11410000000000000000 = some (.write 0x41) := by decide

/-- A home in flight, with the request `q` waiting. -/
def homing (q : HostInput) : State := { post with seq := .running .home 0, inputs := [q] }

theorem witness_IdleStuttersAndBusyPortWaits :
    (post.seq = .idle ∧ post.inputs = []) ∧
    (({ post with inputs := [.wait] } : State).seq = .idle ∧
      ({ post with inputs := [.wait] } : State).inputs = [.wait]) ∧
    (({ post with seq := .running .home 0 } : State).seq = .running .home 0 ∧
      ({ post with seq := .running .home 0 } : State).inputs = []) ∧
    ((homing .wait).seq = .running .home 0 ∧ (homing .wait).inputs = [.wait]) ∧
    ((homing (.request 0x01000000000000000000)).seq = .running .home 0 ∧
      (homing (.request 0x01000000000000000000)).inputs = [.request 0x01000000000000000000]) ∧
    (homing (.begin 0x01000000000000000000)).seq = .running .home 0 ∧
    (homing (.begin 0x01000000000000000000)).inputs = [.begin 0x01000000000000000000] := by decide

theorem witness_StepOnlyAppends : Stepped otherBlock post post ∧ Stepped .block post post ∧
    step post = .next post := ⟨.inl rfl, .inr ⟨rfl, rfl⟩, rfl⟩

theorem witness_OneCompletionPerRequest :
    (asking 0x11410000000000000000 post).seq = .idle ∧
    (asking 0x11410000000000000000 post).inputs = [.request 0x11410000000000000000] ∧
    (reqOp 0x11410000000000000000 = 0x11 ∧ post.phase = .ready) ∧
    reqOp 0x12410000000000000000 ≠ 0x11 ∧ blank.phase ≠ .ready := by decide

theorem witness_ReservedOpCodesRefused :
    (reqOp 0x12FF0000000000000000).toNat < 0x13 ∧ 0x13 ≤ (reqOp 0x13000000000000000000).toNat ∧
    0x13 ≤ (reqOp 0xFF000000000000000000).toNat ∧ ([0x01] : List Byte).length ≠ 10 ∧
    (asking 0x13000000000000000000 post).seq = .idle ∧
    (asking 0x13000000000000000000 post).inputs = [.request 0x13000000000000000000] ∧
    ({ post with inputs := [.begin 0x13000000000000000000] } : State).inputs =
      [.begin 0x13000000000000000000] := by decide

theorem witness_RefusedExactlyWhen :
    (asking 0x01000000000000000000 blank).seq = .idle ∧
    (asking 0x01000000000000000000 blank).inputs = [.request 0x01000000000000000000] ∧
    (blank.phase = .uninit ∧ reqOp 0x01000000000000000000 ≠ 0x00) ∧
    0x13 ≤ (reqOp 0x13000000000000000000).toNat ∧
    ¬ ((blank.phase = .uninit ∧ reqOp 0x00020002030400000000 ≠ 0x00) ∨
      0x13 ≤ (reqOp 0x00020002030400000000).toNat) ∧
    (({ blank with inputs := [.begin 0x00020002030400000000] } : State).seq = .idle ∧
      ({ blank with inputs := [.begin 0x00020002030400000000] } : State).inputs =
        [.begin 0x00020002030400000000]) ∧
    ¬ ((post.phase = .uninit ∧ reqOp 0x12010000000000000000 ≠ 0x00) ∨
      0x13 ≤ (reqOp 0x12010000000000000000).toNat) := by decide

theorem witness_RefusalIsNoSuccess :
    (asking 0x01000000000000000000 blank).seq = .idle ∧
    (asking 0x01000000000000000000 blank).inputs = [.request 0x01000000000000000000] ∧
    (asking 0x01000000000000000000 blank).allPerformed = true := by decide

theorem witness_DecodeOfEncodeIsIdentity :
    (Instr.createChar 0xFF 0 0xFF 0 0xFF 0 0xFF 0 0xFF).wellFormed = true := rfl

theorem witness_InvariantAtReset : otherBlock.cmd = CommandTable.hd44780 := rfl

theorem witness_UnusedFieldsIgnored :
    decode 0x01FFFFFFFFFFFFFFFFFF = .ok .clear ∧
    (0x01000000000000000000 : ReqWord) &&& Instr.clear.usedBits =
      0x01FFFFFFFFFFFFFFFFFF &&& Instr.clear.usedBits := by decide

theorem witness_FrameTxEvents : twoWirePost.twoWire = true ∧ post.twoWire = false := by decide

/-- A reader waiting for a high nibble. -/
def atRest : Reader := { sr := 0, raised := false, strobes := [], iface := .fourHigh, taken := [] }

theorem witness_SendReconstructsByte :
    (atRest.read .hd44780 false post.pinEn post.trace).iface = .fourHigh ∧
    (atRest.read .hd44780 false post.pinEn post.trace).raised = false := by decide

theorem witness_WriteSendsDataByte : reqOp 0x11410000000000000000 = 0x11 ∧ post.phase = .ready ∧
    blank.phase = .uninit := by decide
theorem witness_CommandSendsByteVerbatim : reqOp 0x125A0000000000000000 = 0x12 ∧
    post.phase = .ready ∧ blank.phase = .uninit := by decide
theorem witness_ClearAndHomeWaitLong : reqOp 0x01000000000000000000 = 0x01 ∧
    reqOp 0x02000000000000000000 = 0x02 ∧ post.phase = .ready ∧ blank.phase = .uninit := by decide
theorem witness_SetCursorSendsAddress : reqOp 0x03050100000000000000 = 0x03 ∧
    post.phase = .ready ∧ blank.phase = .uninit := by decide
theorem witness_RowClampOutcomes : (oneLine.phase = .ready ∧ oneLine.numLines = 1) ∧
    post.phase = .ready ∧ post.numLines = 2 := by decide
theorem witness_ColumnWrapsIntoSevenBits : otherBlock.cmd = CommandTable.hd44780 ∧
    post.phase = .ready := by decide
theorem witness_ScrollsSendShiftCommand : reqOp 0x0A000000000000000000 = 0x0A ∧
    reqOp 0x0B000000000000000000 = 0x0B ∧ post.phase = .ready ∧ blank.phase = .uninit := by decide
theorem witness_CreateCharSendsGlyph : reqOp 0x1001000A1F1F0E040000 = 0x10 ∧
    post.phase = .ready ∧ blank.phase = .uninit := by decide
theorem witness_GlyphLocationMasked :
    (0x09 : Byte).extractLsb' 0 3 = (0x01 : Byte).extractLsb' 0 3 ∧
    (0xFF : Byte).extractLsb' 0 3 = (0x07 : Byte).extractLsb' 0 3 := by decide
theorem witness_DisplayControlOperations : reqOp 0x04000000000000000000 = 0x04 ∧
    reqOp 0x05000000000000000000 = 0x05 ∧ reqOp 0x06000000000000000000 = 0x06 ∧
    reqOp 0x07000000000000000000 = 0x07 ∧ reqOp 0x08000000000000000000 = 0x08 ∧
    reqOp 0x09000000000000000000 = 0x09 ∧ post.phase = .ready ∧ blank.phase = .uninit := by decide
theorem witness_EntryModeOperations : reqOp 0x0C000000000000000000 = 0x0C ∧
    reqOp 0x0D000000000000000000 = 0x0D ∧ reqOp 0x0E000000000000000000 = 0x0E ∧
    reqOp 0x0F000000000000000000 = 0x0F ∧ post.phase = .ready ∧ blank.phase = .uninit := by decide

theorem witness_ModeOperationsIdempotent : IsMode .cursor ∧ post.phase = .ready ∧
    ∃ t u, Ran otherBlock .cursor post t ∧ Ran otherBlock .cursor t u :=
  ⟨by simp [IsMode], rfl, _, _, .inl rfl, .inl rfl⟩

theorem witness_ModeOperationsIndependent : Config.block.cmd = CommandTable.hd44780 ∧
    post.phase = .ready ∧ (∃ t, Ran .block .noDisplay post t) ∧ (∃ t, Ran .block .cursor post t) ∧
    (∃ t, Ran .block .blink post t) ∧ (∃ t, Ran .block .shiftRight post t) ∧
    ∃ t, Ran .block .shiftInc post t :=
  ⟨rfl, rfl, ⟨_, .inl rfl⟩, ⟨_, .inl rfl⟩, ⟨_, .inl rfl⟩, ⟨_, .inl rfl⟩, _, .inl rfl⟩

theorem witness_RawCommandLeavesMasksStale : post.phase = .ready := rfl

theorem witness_InitRunsWholeSequence : reqOp 0x00020002030400000000 = 0x00 := by decide

theorem witness_RegistersAfterInit : Config.block.cmd = CommandTable.hd44780 ∧
    otherBlock.cmd = CommandTable.hd44780 := ⟨rfl, rfl⟩

theorem witness_InitForgetsOldRegisters : post.resets = twoWirePost.resets ∧
    ∃ t t', Ran otherBlock (.init 7 8 9 1 0) post t ∧
      Ran otherBlock (.init 7 8 9 1 0) twoWirePost t' :=
  ⟨rfl, _, _, .inl rfl, .inl rfl⟩

theorem witness_UnspecifiedRegistersNeverRead : blank.phase = .uninit ∧
    SameButUnspecified blank { blank with dctrl := 0xFF, pinEn := 9 } ∧
    ∃ t t', Ran .block (.init 7 8 9 1 0) blank t ∧
      Ran .block (.init 7 8 9 1 0) { blank with dctrl := 0xFF, pinEn := 9 } t' ∧
      t.phase = .ready :=
  ⟨rfl, ⟨rfl, rfl, rfl, rfl, rfl, rfl⟩, _, _, .inl rfl, .inl rfl, rfl⟩

theorem witness_InitStateEventCounts : Config.block.nibbleSettleUs ≠ 0 := by decide

/-- Readers in each of the three interface states (R210). -/
theorem witness_HandshakeEndsInFourBitMode : Config.block.cmd = CommandTable.hd44780 ∧
    (atRest.read Config.block.cmd false post.pinEn post.trace).raised = false ∧
    (Reader.read Config.block.cmd false post.pinEn { atRest with iface := .eightBit } post.trace).raised =
      false ∧
    (Reader.read Config.block.cmd true post.pinEn { atRest with iface := .fourLow 0xA4 }
      post.trace).raised = false := by decide

theorem witness_RegisterWriters : Instr.cursor.isInit = false ∧
    (∃ t, Ran .block .cursor post t) ∧ (∃ t, Ran .block .clear blank t) ∧
    Instr.clear ∉ [.display, .noDisplay, .cursor, .noCursor, .blink, .noBlink] ∧
    Instr.cursor ∉ [.shiftLeft, .shiftRight, .shiftInc, .shiftDec] :=
  ⟨rfl, ⟨_, .inl rfl⟩, ⟨_, .inl rfl⟩, by decide, by decide⟩

/-- An INIT in flight, two steps before its end. -/
def nearlyDone : State :=
  let init : Instr := .init 2 3 4 2 0
  { blank with seq := .running init ((microcode init).length - 2) }

/-- A reset of an initialized block, an INIT taken whole, and the step of an INIT in flight before its
completion: each changes `PHASE`. -/
theorem witness_PhaseChangesOnlyByResetAndInit :
    (∃ t, Stepped .block { post with inputs := [.reset] } t ∧ t.phase ≠ post.phase) ∧
    (∃ t, Stepped .block (asking 0x00020002030400000000 blank) t ∧ t.phase ≠ blank.phase) ∧
    ∃ t, Stepped .block nearlyDone t ∧ t.phase ≠ nearlyDone.phase :=
  ⟨⟨_, .inl rfl, nofun⟩, ⟨_, .inl rfl, nofun⟩, _, .inl rfl, nofun⟩

theorem witness_OnlyFramesAndWaits : accepts post.phase .clear = true ∧
    (∃ t, Ran .block .clear post t) ∧ accepts blank.phase (.init 2 3 4 2 0) = true ∧
    ∃ t, Ran otherBlock (.init 2 3 4 2 0) blank t :=
  ⟨rfl, ⟨_, .inl rfl⟩, rfl, _, .inl rfl⟩

theorem witness_EveryFrameStrobedOnce : accepts twoWirePost.phase .clear = true ∧
    atRest.raised = false ∧
    ∃ t es, Ran .block .clear twoWirePost t ∧ t.trace = twoWirePost.trace ++ es :=
  ⟨rfl, rfl, _, _, .inl rfl, rfl⟩

theorem witness_RequestedDelayTotals : Config.block.nibbleSettleUs = 40 ∧
    accepts blank.phase (.init 2 3 4 2 0) = true ∧
    ∃ t es, Ran .block (.init 2 3 4 2 0) blank t ∧ t.trace = blank.trace ++ es :=
  ⟨rfl, rfl, _, _, .inl rfl, rfl⟩

theorem witness_EventTotals : Config.block.nibbleSettleUs ≠ 0 ∧ accepts post.phase .home = true ∧
    (∃ t es, Ran .block .home post t ∧ t.trace = post.trace ++ es ∧ t.twoWire = false) ∧
    ∃ t es, Ran .block .home twoWirePost t ∧ t.trace = twoWirePost.trace ++ es ∧ t.twoWire = true :=
  ⟨by decide, rfl, ⟨_, _, .inl rfl, rfl, rfl⟩, _, _, .inl rfl, rfl, rfl⟩

theorem witness_ConformanceRelation :
    conforms [.pinMode 2, .delay 9] [.pinMode 2, .delay 8] = true ∧
    conforms [.pinMode 2, .delay 8] [.pinMode 2, .delay 4, .delay 4] = true ∧
    otherEvents [.pinMode 2, .delay 8] ≠ otherEvents [.delay 8] ∧ 40 ≤ 40 ∧
    isDelay (.shiftOut 2 3 0x98) = false ∧ 39 < 40 := by decide

theorem post_configCoherent : ConfigCoherent post := by constructor <;> decide

/-- An initialized block, idle, meets the invariant and steps. -/
theorem witness_InvariantKeptByEveryStep : BlockInv .block post ∧ Stepped .block post post :=
  ⟨⟨rfl, fun _ => post_configCoherent, fun _ => by unfold DctrlOk; decide,
    fun _ => by unfold EmodeOk; decide, by simp [post], by simp [post]⟩, .inl rfl⟩

/-- So does a block inside its first INIT, past the configuration. -/
theorem witness_InvariantKeptByEveryStep_in_flight :
    BlockInv .block { blank with seq := .running (.init 2 3 4 2 0) 1 } where
  table := rfl
  config := by simp [blank]
  dctrl := by simp [blank]
  emode := by simp [blank]
  accepted := by
    intro i n h
    cases h
    rfl
  passed := by
    intro i n h m hm
    cases h
    have : m = .configure 2 3 4 2 0 := by
      simpa [microcode, InitState.all, InitState.steps] using hm
    subst this
    exact ⟨by decide, by decide, by decide, by decide, by decide, by decide⟩

theorem witness_InitEstablishesMaskCoherence : otherBlock.cmd = CommandTable.hd44780 ∧
    ∃ t, Ran otherBlock (.init 2 3 4 2 0) blank t := ⟨rfl, _, .inl rfl⟩

/-- The trace up to the handshake, and the three mode commands. -/
def handshaken : List Event := .pinMode 2 :: (post.frameEvents 0x98 ++ post.frameEvents 0x98 ++
  post.frameEvents 0x98 ++ post.frameEvents 0x90)
def modeCommands : List Event :=
  post.sendEvents 0x28 false ++ post.sendEvents 0x0C false ++ post.sendEvents 0x06 false

/-- A block that has sent its masks. -/
def talked : State := { post with trace := handshaken ++ modeCommands }

/-- Whatever a reader knew before, after the handshake it waits for a high nibble. -/
theorem read_handshaken (mixed : Bool) (r : Reader) :
    (r.read .hd44780 mixed 4 handshaken).iface = .fourHigh ∧
    (r.read .hd44780 mixed 4 handshaken).raised = false := by
  have hf : ∀ (q : Reader) (f : Byte), q.raised = false →
      (q.read .hd44780 mixed 4 (post.frameEvents f)).raised = false ∧
      (q.read .hd44780 mixed 4 (post.frameEvents f)).iface =
        q.iface.afterFrame .hd44780 mixed f := by
    intro q f hq
    rw [show (4 : PinId) = post.pinEn from rfl, Reader.read_frame _ _ _ _ _ hq]
    exact ⟨rfl, Reader.strobe_iface ..⟩
  have hi : ∀ (m : Bool) (i : Interface), Interface.afterFrame .hd44780 m 0x90
      (Interface.afterFrame .hd44780 m 0x98 (Interface.afterFrame .hd44780 m 0x98
        (Interface.afterFrame .hd44780 m 0x98 i))) = .fourHigh := by
    intro m i
    cases i with
    | fourLow u => revert m u; decide
    | _ => revert m; decide
  rw [show handshaken = [.pinMode 2] ++ (post.frameEvents 0x98 ++ post.frameEvents 0x98 ++
    post.frameEvents 0x98 ++ post.frameEvents 0x90) from rfl]
  simp only [Reader.read_append]
  have h0 : (r.read .hd44780 mixed 4 [.pinMode 2]).raised = false := rfl
  have h1 := hf _ 0x98 h0
  have h2 := hf _ 0x98 h1.1
  have h3 := hf _ 0x98 h2.1
  have h4 := hf _ 0x90 h3.1
  exact ⟨by rw [h4.2, h3.2, h2.2, h1.2]; exact hi mixed _, h4.1⟩

theorem talked_maskCoherent : MaskCoherent .block talked := by
  intro mixed r
  change Reader.iface (r.read .hd44780 mixed 4 (handshaken ++ modeCommands)) = _ ∧
    Reader.raised (r.read .hd44780 mixed 4 (handshaken ++ modeCommands)) = _ ∧
    lastCommand 0x08 (r.read .hd44780 mixed 4 (handshaken ++ modeCommands)).taken = some 0x0C ∧
    lastCommand 0x04 (r.read .hd44780 mixed 4 (handshaken ++ modeCommands)).taken = some 0x06 ∧
    lastCommand 0x20 (r.read .hd44780 mixed 4 (handshaken ++ modeCommands)).taken = some 0x28
  rw [Reader.read_append]
  obtain ⟨h1, h2⟩ := read_handshaken mixed r
  generalize r.read .hd44780 mixed 4 handshaken = q at h1 h2 ⊢
  obtain ⟨sr, raised, strobes, iface, taken⟩ := q
  subst h1 h2
  have ht : (Reader.read .hd44780 mixed 4 ⟨sr, false, strobes, .fourHigh, taken⟩ modeCommands) =
    ⟨0xB0, false, strobes ++ [0x90, 0xC0, 0x80, 0xE0, 0x80, 0xB0], .fourHigh,
      taken ++ [⟨0x28, false⟩, ⟨0x0C, false⟩, ⟨0x06, false⟩]⟩ := by
    simp [modeCommands, State.sendEvents, State.frameEvents, post, Reader.read, Reader.event,
      Reader.strobe, Reader.take, Interface.afterByte, isCommandOf, frameNibble, frameIsData,
      upperFrame, lowerFrame, rsBit, Config.frameEn, Config.frameDataMask, CommandTable.hd44780]
  rw [ht]
  refine ⟨rfl, rfl, ?_, ?_, ?_⟩ <;> simp [lastCommand, List.filter_append, isCommandOf]

/-- A READY block whose masks are those it has sent, and an operation that is no raw mode command:
data, a named mode operation, and a raw command of another kind. -/
theorem witness_MaskCoherenceKept : BlockInv .block talked ∧ talked.phase = .ready ∧
    MaskCoherent .block talked ∧
    isModeCommand Config.block.cmd 0x01 = false ∧ isModeCommand Config.block.cmd 0x80 = false ∧
    (∃ t, Ran .block (.command 0x01) talked t) ∧ ∃ t, Ran .block .cursor talked t :=
  ⟨⟨rfl, fun _ => by constructor <;> decide, fun _ => by unfold DctrlOk; decide,
    fun _ => by unfold EmodeOk; decide, by simp [talked, post], by simp [talked, post]⟩, rfl,
    talked_maskCoherent, by decide, by decide, ⟨_, .inl rfl⟩, _, .inl rfl⟩

theorem witness_SequencerRefinesOperations : post.seq = .idle ∧ accepts post.phase .clear = true ∧
    blank.seq = .idle ∧ accepts blank.phase (.init 2 3 4 2 0) = true := by decide

theorem witness_AbandonedOperationKeepsPrefix : post.seq = .idle ∧
    accepts post.phase (.write 0x41) = true ∧ (∃ t, Ran .block (.write 0x41) post t) ∧
    6 < (microcode (.write 0x41)).length ∧ 0 < (microcode .clear).length :=
  ⟨rfl, rfl, ⟨_, .inl rfl⟩, by decide, by decide⟩

end Sys2Proof.Tests
end

section
/-! The scope rules (`00_scope.md`): the command table (R12), the parameters of the block (R11, R38) and
the conformance of traces (R10). -/

namespace Sys2Proof.Machine

open Sys2Proof.Claims

/-! ### The parameters -/

theorem exec_eq_execWith_block (i : Instr) (s : State) : exec i s = execWith .block i s := by
  cases i <;> rfl

theorem step_eq_stepWith_block (s : State) : step s = stepWith .block s := by
  have hrun : exec = execWith .block := funext₂ exec_eq_execWith_block
  cases h : s.seq with
  | idle => rw [step_idle h, stepWith_idle h, hrun]
  | running i n => rw [step_running h, stepWith_running h]

/-! ### Traces: waits and other events -/

/-- Induction over a trace with the events of R10 in two kinds: waits, and all others alike. -/
theorem traceInduction {motive : List Event → Prop} (nil : motive [])
    (delay : ∀ us es, motive es → motive (.delay us :: es))
    (other : ∀ e es, isDelay e = false → motive es → motive (e :: es)) (es : List Event) :
    motive es := by
  induction es with
  | nil => exact nil
  | cons e es ih =>
    cases e with
    | delay us => exact delay us es ih
    | pinMode p => exact other _ es rfl ih
    | pinLevel p l => exact other _ es rfl ih
    | shiftOut dp cp b => exact other _ es rfl ih

section equations

variable {e : Event} {es : List Event} (us k : Nat)

@[simp] theorem segments_delay :
    segments (.delay us :: es) = (us + (segments es).1, (segments es).2) := rfl

theorem segments_other (h : isDelay e = false) :
    segments (e :: es) = (0, (e, (segments es).1) :: (segments es).2) := by
  cases e with
  | delay us => cases h
  | pinMode p => rfl
  | pinLevel p l => rfl
  | shiftOut dp cp b => rfl

@[simp] theorem afterOther_delay : afterOther (.delay us :: es) k = afterOther es k := by
  simp [afterOther, isDelay]

theorem afterOther_other_zero (h : isDelay e = false) : afterOther (e :: es) 0 = es := by
  simp [afterOther, h]

theorem afterOther_other_succ (h : isDelay e = false) :
    afterOther (e :: es) (k + 1) = afterOther es k := by
  simp [afterOther, h]

@[simp] theorem otherEvents_delay : otherEvents (.delay us :: es) = otherEvents es := by
  simp [otherEvents, isDelay]

theorem otherEvents_other (h : isDelay e = false) :
    otherEvents (e :: es) = e :: otherEvents es := by
  simp [otherEvents, h]

end equations

/-- The first wait of the segments is the delay before the first other event. -/
theorem segments_fst (es : List Event) : (segments es).1 = totalDelay (es.takeWhile isDelay) := by
  induction es using traceInduction with
  | nil => rfl
  | delay us es ih => simp [List.takeWhile_cons, isDelay, totalDelay, ih]
  | other e es h ih => simp [segments_other h, h, totalDelay]

theorem map_fst_segments (es : List Event) : (segments es).2.map Prod.fst = otherEvents es := by
  induction es using traceInduction with
  | nil => rfl
  | delay us es ih => simpa using ih
  | other e es h ih => simp [segments_other h, otherEvents_other h, ih]

theorem getD_map_snd_segments (es : List Event) (k : Nat) :
    ((segments es).2.map Prod.snd).getD k 0 = gapAfter es k := by
  induction es using traceInduction generalizing k with
  | nil => simp [segments, gapAfter, afterOther, totalDelay]
  | delay us es ih => simpa [gapAfter] using ih k
  | other e es h ih =>
    cases k with
    | zero => simp [segments_other h, gapAfter, afterOther_other_zero h, segments_fst]
    | succ k => simpa [segments_other h, gapAfter, afterOther_other_succ k h] using ih k

/-- What follows the other events of `a` in `a ++ es`. -/
theorem afterOther_append (a es : List Event) (k : Nat) :
    afterOther (a ++ es) ((otherEvents a).length + k) = afterOther es k := by
  induction a using traceInduction with
  | nil => simp [otherEvents]
  | delay us a ih => simpa using ih
  | other e a h ih =>
    simpa [otherEvents_other h, Nat.add_right_comm, afterOther_other_succ _ h] using ih

/-- The gap after an event that is no wait is the delay that the rest of the trace begins with. -/
theorem gapAfter_append_other {e : Event} (h : isDelay e = false) (a es : List Event) :
    gapAfter (a ++ e :: es) (otherEvents a).length = (segments es).1 := by
  rw [gapAfter, ← Nat.add_zero (otherEvents a).length, afterOther_append,
    afterOther_other_zero h, segments_fst]

/-! ### Conformance -/

/-- Segments conform exactly if the events are the same and no gap is shorter. -/
theorem segmentsConform_iff (xs ys : List (Event × Nat)) :
    segmentsConform xs ys = true ↔
      xs.map Prod.fst = ys.map Prod.fst ∧
      ∀ k, (ys.map Prod.snd).getD k 0 ≤ (xs.map Prod.snd).getD k 0 := by
  induction xs generalizing ys with
  | nil => cases ys <;> simp [segmentsConform]
  | cons x xs ih =>
    cases ys with
    | nil => simp [segmentsConform]
    | cons y ys =>
      rw [← Nat.and_forall_add_one]
      simp [segmentsConform, ih, and_assoc, and_left_comm]

theorem conforms_iff (a b : List Event) :
    conforms a b = true ↔
      otherEvents a = otherEvents b ∧ ∀ k, gapAfter b k ≤ gapAfter a k := by
  simp only [conforms, segmentsConform_iff, map_fst_segments, getD_map_snd_segments]

theorem conforms_refl (a : List Event) : conforms a a = true :=
  (conforms_iff a a).2 ⟨rfl, fun _ => le_rfl⟩

theorem conforms_trans {a b c : List Event} (hab : conforms a b = true)
    (hbc : conforms b c = true) : conforms a c = true := by
  obtain ⟨hev, hgap⟩ := (conforms_iff a b).1 hab
  obtain ⟨hev', hgap'⟩ := (conforms_iff b c).1 hbc
  exact (conforms_iff a c).2 ⟨hev.trans hev', fun k => (hgap' k).trans (hgap k)⟩

/-- Conformance is kept when both traces get the same beginning `a`. `conforms` does not compare the
waits they begin with (log 22), but behind `a` these belong to a gap, so `hlead` compares them. -/
theorem conforms_append_left (a : List Event) {x y : List Event}
    (hlead : (segments y).1 ≤ (segments x).1)
    (h : conforms x y = true) : conforms (a ++ x) (a ++ y) = true := by
  suffices (segments (a ++ y)).1 ≤ (segments (a ++ x)).1 ∧ conforms (a ++ x) (a ++ y) = true from
    this.2
  induction a using traceInduction with
  | nil => exact ⟨hlead, h⟩
  | delay us a ih =>
    obtain ⟨ihLead, ih⟩ := ih
    exact ⟨Nat.add_le_add_left ihLead us, ih⟩
  | other e a he ih =>
    obtain ⟨ihLead, ih⟩ := ih
    refine ⟨by simp [segments_other he], ?_⟩
    simpa [conforms, segments_other he, segmentsConform, ihLead] using ih

theorem conforms_split_wait (a b : List Event) (m n : Nat) :
    conforms (a ++ .delay (m + n) :: b) (a ++ .delay m :: .delay n :: b) = true :=
  conforms_append_left a (x := .delay (m + n) :: b) (y := .delay m :: .delay n :: b)
    (by simp [Nat.add_assoc]) (conforms_refl b)

theorem conforms_join_wait (a b : List Event) (m n : Nat) :
    conforms (a ++ .delay m :: .delay n :: b) (a ++ .delay (m + n) :: b) = true :=
  conforms_append_left a (x := .delay m :: .delay n :: b) (y := .delay (m + n) :: b)
    (by simp [Nat.add_assoc]) (conforms_refl b)

theorem conforms_lengthen_wait (a b : List Event) {m n : Nat} (h : m ≤ n) :
    conforms (a ++ .delay n :: b) (a ++ .delay m :: b) = true :=
  conforms_append_left a (x := .delay n :: b) (y := .delay m :: b)
    (Nat.add_le_add_right h _) (conforms_refl b)

/-- A wait shortened right after an event that is no wait leaves that event's gap too short. -/
theorem not_conforms_shorten_wait {e : Event} (a b : List Event) {m n : Nat}
    (he : isDelay e = false) (h : m < n) :
    conforms (a ++ e :: .delay m :: b) (a ++ e :: .delay n :: b) = false := by
  refine Bool.eq_false_iff.2 fun hc => ?_
  have hgap := ((conforms_iff _ _).1 hc).2 (otherEvents a).length
  simp only [gapAfter_append_other he, segments_delay] at hgap
  omega

/-! ### The obligations -/

/-- Settles O17: the five parts of the check, each over the literal constants of R12. -/
theorem defaultTableWellFormed : Obligations.DefaultTableWellFormed := by
  have hdisp : CommandTable.hd44780.dispFlagsOk = true := by decide
  have hentry : CommandTable.hd44780.entryFlagsOk = true := by decide
  have hfunc : CommandTable.hd44780.funcFlagsOk = true := by decide
  have hbases : CommandTable.hd44780.basesOk = true := by decide
  have hcommands : CommandTable.hd44780.commandBitsOk = true := by decide
  unfold Obligations.DefaultTableWellFormed CommandTable.wellFormed
  rw [hdisp, hentry, hfunc, hbases, hcommands]
  rfl

/-- Settles O52, by the arms of the dispatch and the two positions of the sequencer. -/
theorem execIsOneOfTheBlocks : Obligations.ExecIsOneOfTheBlocks :=
  ⟨exec_eq_execWith_block, step_eq_stepWith_block⟩

/-- Settles O45: the characterisation by events and gaps, and its consequences. -/
theorem conformanceRelation : Obligations.ConformanceRelation := by
  refine ⟨conforms_iff, ?missing, conforms_refl, fun _ _ _ => conforms_trans, ?splitJoin,
    fun a b _ _ => conforms_lengthen_wait a b, fun _ a b _ _ => not_conforms_shorten_wait a b⟩
  case missing =>
    intro a b hne
    exact Bool.eq_false_iff.2 fun hc => hne ((conforms_iff a b).1 hc).1
  case splitJoin =>
    exact fun a b m n => ⟨conforms_split_wait a b m n, conforms_join_wait a b m n⟩

end Sys2Proof.Machine
end

section
/-! Operations as a whole: what an accepted operation writes, emits and returns, in closed form (R74,
R100, R160, R184), and the obligations that follow from it. -/

namespace Sys2Proof

open Machine

/-- The registers an accepted operation writes (the column "written by" of R20); `PHASE` among them,
`SEQ` left to the completion. -/
def Instr.writes (p : Config) (s : State) : Instr → State
  | .init d c e lines font =>
      (((s.configure p d c e lines font).initDctrl p).initEmode p).becomeReady
  | .display => s.updateDctrl p .display true
  | .noDisplay => s.updateDctrl p .display false
  | .cursor => s.updateDctrl p .cursor true
  | .noCursor => s.updateDctrl p .cursor false
  | .blink => s.updateDctrl p .blink true
  | .noBlink => s.updateDctrl p .blink false
  | .shiftLeft => s.updateEmode p .left true
  | .shiftRight => s.updateEmode p .left false
  | .shiftInc => s.updateEmode p .shiftInc true
  | .shiftDec => s.updateEmode p .shiftInc false
  | .clear | .home | .setCursor .. | .scrollLeft | .scrollRight | .createChar .. | .write _
  | .command _ => s

/-- The bytes an operation other than INIT sends, built from the registers of `s`. INIT's sequence is
no list of sends; it is `State.initEvents`. -/
def Instr.sends (p : Config) (s : State) : Instr → List Sent
  | .init .. => []
  | .clear => [⟨p.cmd.clear, false⟩]
  | .home => [⟨p.cmd.home, false⟩]
  | .setCursor col row => [⟨p.cmd.setDdram ||| ddramAddress s.numLines col row, false⟩]
  | .display | .noDisplay | .cursor | .noCursor | .blink | .noBlink =>
      [⟨p.cmd.dispCtrl ||| s.dctrl, false⟩]
  | .scrollLeft => [⟨p.cmd.shift ||| p.cmd.shDisplay, false⟩]
  | .scrollRight => [⟨p.cmd.shift ||| (p.cmd.shDisplay ||| p.cmd.shRight), false⟩]
  | .shiftLeft | .shiftRight | .shiftInc | .shiftDec => [⟨p.cmd.entryMode ||| s.emode, false⟩]
  | .createChar location g0 g1 g2 g3 g4 g5 g6 g7 =>
      ⟨p.cmd.setCgram ||| cgramAddress location, false⟩ ::
        [g0, g1, g2, g3, g4, g5, g6, g7].map (⟨·, true⟩) ++ [⟨p.cmd.setDdram, false⟩]
  | .write byte => [⟨byte, true⟩]
  | .command byte => [⟨byte, false⟩]

/-- The wait after the last send: long for CLEAR and HOME (R140, R141). -/
def Instr.closingWait : Instr → Nat
  | .clear | .home => Config.longUs
  | _ => 0

/-- The completion value of a performed operation (R74). -/
def Instr.ret : Instr → Byte
  | .write _ => 1
  | _ => 0

/-- The events of an accepted operation whose registers `s` are already written. -/
def Instr.events (p : Config) (s : State) : Instr → List Event
  | .init .. => s.initEvents p
  | i => ((i.sends p s).flatMap fun b => s.sendEvents b.value b.isData) ++ waitEvents i.closingWait

/-- The state an accepted operation answers. -/
def Instr.outcome (p : Config) (s : State) (i : Instr) : State :=
  ((i.writes p s).emits (i.events p (i.writes p s))).complete i.ret

end Sys2Proof

namespace Sys2Proof.Machine

open Sys2Proof.Claims

variable {p : Config} {s t : State} {i : Instr}

/-! ### Acceptance -/

theorem Instr.eq_init (hi : i.isInit = true) :
    ∃ d c e lines font, i = .init d c e lines font := by
  cases i with
  | init d c e lines font => exact ⟨d, c, e, lines, font, rfl⟩
  | _ => cases hi

theorem accepts_of_isInit (hi : i.isInit = true) : accepts s.phase i = true := by
  cases s.phase
  · exact hi
  · rfl

theorem ready_of_accepts (hacc : accepts s.phase i = true) (hi : i.isInit = false) :
    s.phase = .ready := by
  cases hph : s.phase with
  | ready => rfl
  | uninit => simp [accepts, hph, hi] at hacc

theorem accepts_eq_false_iff :
    accepts s.phase i = false ↔ s.phase = .uninit ∧ i.isInit = false := by
  cases s.phase <;> simp [accepts]

/-! ### INIT -/

section emits
variable (s : State) (es : List Event)

@[simp] theorem State.emits_initDctrl :
    (s.emits es).initDctrl p = (s.initDctrl p).emits es := rfl
@[simp] theorem State.emits_initEmode :
    (s.emits es).initEmode p = (s.initEmode p).emits es := rfl
@[simp] theorem State.emits_becomeReady :
    (s.emits es).becomeReady = s.becomeReady.emits es := rfl

end emits

theorem State.pinModes_eq (s : State) : s.pinModes =
    s.emits [.pinMode s.pinData, .pinMode s.pinClk, .pinMode s.pinEn] := by
  simp [State.pinModes, State.emit_eq]

/-- The events of the handshake (R104 to R106). -/
def State.handshakeEvents (p : Config) (s : State) : List Event :=
  waitEvents Config.powerupUs ++
    s.nibbleEvents p (p.cmd.funcSet ||| p.cmd.fs8Bit) ++ waitEvents Config.fs1Us ++
    s.nibbleEvents p (p.cmd.funcSet ||| p.cmd.fs8Bit) ++ waitEvents Config.fs2Us ++
    s.nibbleEvents p (p.cmd.funcSet ||| p.cmd.fs8Bit) ++ waitEvents Config.fs3Us ++
    s.nibbleEvents p p.cmd.funcSet

/-- The events of the commands that end INIT (R107 to R111). -/
def State.setupEvents (p : Config) (s : State) : List Event :=
  s.sendEvents (p.cmd.funcSet ||| s.fset) false ++
    s.sendEvents (p.cmd.dispCtrl ||| p.cmd.dcDisplay) false ++
    s.sendEvents p.cmd.clear false ++ waitEvents Config.longUs ++
    s.sendEvents (p.cmd.entryMode ||| p.cmd.emLeft) false ++
    s.sendEvents p.cmd.home false ++ waitEvents Config.longUs

theorem State.handshake_eq (s : State) : s.handshake p = s.emits (s.handshakeEvents p) := by
  simp [State.handshake, State.handshakeEvents, State.sendNibble_eq, State.wait_eq, Source.value,
    compose]

theorem State.displaySetup_eq (s : State) :
    s.displaySetup p = ((s.initDctrl p).initEmode p).emits (s.setupEvents p) := by
  simp [State.displaySetup, State.setupEvents, State.sendSource_eq, State.wait_eq, Source.value,
    compose]

/-- The three parts of INIT's event list (R100). -/
theorem State.initEvents_eq (s : State) : s.initEvents p =
    [.pinMode s.pinData, .pinMode s.pinClk, .pinMode s.pinEn] ++ s.handshakeEvents p ++
      s.setupEvents p := by
  simp [State.initEvents, State.handshakeEvents, State.setupEvents, waitEvents, Config.powerupUs,
    Config.fs1Us, Config.fs2Us, Config.fs3Us, Config.longUs]

@[simp] theorem State.handshakeEvents_emits (s : State) (es : List Event) :
    (s.emits es).handshakeEvents p = s.handshakeEvents p := rfl

@[simp] theorem State.setupEvents_emits (s : State) (es : List Event) :
    (s.emits es).setupEvents p = s.setupEvents p := rfl

theorem execInit_eq (d c e : PinId) (lines font : Byte) (s : State) :
    execInit d c e lines font s p = .next (Instr.outcome p s (.init d c e lines font)) := by
  have hev : Instr.events p (Instr.writes p s (.init d c e lines font)) (.init d c e lines font) =
      (s.configure p d c e lines font).initEvents p := rfl
  rw [Instr.outcome, hev, State.initEvents_eq]
  simp [execInit, State.pinModes_eq, State.handshake_eq, State.displaySetup_eq, Instr.writes,
    Instr.ret]

/-! ### Every operation -/

theorem Instr.events_of_not_init (hi : i.isInit = false) : i.events p s =
    ((i.sends p s).flatMap fun b => s.sendEvents b.value b.isData) ++ waitEvents i.closingWait := by
  cases i with
  | init d c e lines font => cases hi
  | _ => rfl

/-- Every operation but INIT is performed in `READY` only, where it writes and emits what the
closed form says. -/
theorem execWith_eq_ifReady (p : Config) (s : State) (hi : i.isInit = false) : ∃ body,
    execWith p i s = ifReady s i.ret body ∧
      body s = (i.writes p s).emits (i.events p (i.writes p s)) := by
  rw [Instr.events_of_not_init hi]
  cases i with
  | init d c e lines font => cases hi
  | display | noDisplay | cursor | noCursor | blink | noBlink =>
    refine ⟨_, rfl, ?_⟩
    simp [displayMode_eq, Instr.writes, Instr.sends, Instr.closingWait, waitEvents, compose]
  | shiftLeft | shiftRight | shiftInc | shiftDec =>
    refine ⟨_, rfl, ?_⟩
    simp [entryMode_eq, Instr.writes, Instr.sends, Instr.closingWait, waitEvents, compose]
  | clear | home =>
    refine ⟨fun u => (u.sendSource p _ false).wait Config.longUs, rfl, ?_⟩
    simp [Instr.writes, Instr.sends, Instr.closingWait, State.sendSource_eq, State.wait_eq,
      Source.value]
  | createChar location g0 g1 g2 g3 g4 g5 g6 g7 =>
    refine ⟨fun u => ((u.sendSource p (.setCgram location) false).sendRows p
      [g0, g1, g2, g3, g4, g5, g6, g7]).sendSource p .setDdramZero false, rfl, ?_⟩
    simp [Instr.writes, Instr.sends, Instr.closingWait, State.sendSource_eq, State.sendRows_eq,
      State.rowsEvents, waitEvents, Source.value, compose]
  | setCursor | scrollLeft | scrollRight | write | command =>
    refine ⟨_, rfl, ?_⟩
    simp [Instr.writes, Instr.sends, Instr.closingWait, State.sendSource_eq, waitEvents,
      Source.value, compose]

theorem execWith_accepted (hacc : accepts s.phase i = true) :
    execWith p i s = .next (i.outcome p s) := by
  cases hi : i.isInit with
  | true =>
    obtain ⟨d, c, e, lines, font, rfl⟩ := Instr.eq_init hi
    exact execInit_eq d c e lines font s
  | false =>
    obtain ⟨body, hexec, hbody⟩ := execWith_eq_ifReady p s hi
    rw [hexec, ifReady_of_ready _ (ready_of_accepts hacc hi), hbody, Instr.outcome]

theorem execWith_refused (hacc : accepts s.phase i = false) :
    execWith p i s = .next (s.refuse .uninitialized) := by
  obtain ⟨hph, hi⟩ := accepts_eq_false_iff.1 hacc
  obtain ⟨body, hexec, -⟩ := execWith_eq_ifReady p s hi
  rw [hexec, ifReady_of_uninit _ hph]

/-- What any operation answers: its outcome, or the refusal (R184). -/
theorem execWith_cases (h : execWith p i s = .next t) :
    (accepts s.phase i = true ∧ t = i.outcome p s) ∨
    (accepts s.phase i = false ∧ t = s.refuse .uninitialized) := by
  cases hacc : accepts s.phase i with
  | true =>
    rw [execWith_accepted hacc] at h
    cases h; exact .inl ⟨rfl, rfl⟩
  | false =>
    rw [execWith_refused hacc] at h
    cases h; exact .inr ⟨rfl, rfl⟩

theorem execWith_of_ran (h : Ran p i s t) : execWith p i s = .next t := by
  obtain h | ⟨rfl, h⟩ := h
  · exact h
  · rwa [← exec_eq_execWith_block]

theorem eq_outcome_of_ran (h : Ran p i s t) (hacc : accepts s.phase i = true) :
    t = i.outcome p s := by
  have hrun := execWith_of_ran h
  rw [execWith_accepted hacc] at hrun
  cases hrun; rfl

theorem stepWith_of_stepped (h : Stepped p s t) : stepWith p s = .next t := by
  obtain h | ⟨rfl, h⟩ := h
  · exact h
  · rwa [← step_eq_stepWith_block]

/-- A meaning given for every choice of the parameters is that of `exec` too. -/
theorem performs_of_execWith {f : Config → State} (h : ∀ p, execWith p i s = .next (f p)) :
    Performs i s f :=
  ⟨(exec_eq_execWith_block i s).trans (h .block), h⟩

theorem stepsTo_of_stepWith {f : Config → State} (h : ∀ p, stepWith p s = .next (f p)) :
    StepsTo s f :=
  ⟨(step_eq_stepWith_block s).trans (h .block), h⟩

/-! ### What an operation leaves unchanged -/

/-- The mask writes of R20's column "written by", for the operations other than INIT. -/
theorem Instr.writes_cases (p : Config) (s : State) (hi : i.isInit = false) :
    i.writes p s = s ∨
    (i ∈ [.display, .noDisplay, .cursor, .noCursor, .blink, .noBlink] ∧
      ∃ f on, i.writes p s = s.updateDctrl p f on) ∨
    (i ∈ [.shiftLeft, .shiftRight, .shiftInc, .shiftDec] ∧
      ∃ f on, i.writes p s = s.updateEmode p f on) := by
  cases i with
  | init d c e lines font => cases hi
  | display | noDisplay | cursor | noCursor | blink | noBlink =>
    exact .inr (.inl ⟨by simp, _, _, rfl⟩)
  | shiftLeft | shiftRight | shiftInc | shiftDec => exact .inr (.inr ⟨by simp, _, _, rfl⟩)
  | _ => exact .inl rfl

theorem Instr.outcome_phase (i : Instr) :
    (i.outcome p s).phase = if i.isInit then .ready else s.phase := by
  cases i <;> rfl

/-- INIT writes all nine unspecified registers before anything depends on them: its outcome does not
depend on them (R37, R112). -/
theorem Instr.outcome_init_congr (hi : i.isInit = true) (h : SameButUnspecified s t) :
    i.outcome p s = i.outcome p t := by
  obtain ⟨-, -, hin, htr, hcomp, hres⟩ := h
  obtain ⟨d, c, e, lines, font, rfl⟩ := Instr.eq_init hi
  cases s; cases t
  cases hin; cases htr; cases hcomp; cases hres
  rfl

/-! ### The obligations of the operations taken whole -/

/-- Settles O35: the closed form of INIT, field by field. -/
theorem registersAfterInit : Obligations.RegistersAfterInit := by
  intro s d c e lines font
  refine ⟨fun p => Instr.outcome p s (.init d c e lines font),
    performs_of_execWith fun p => execWith_accepted (accepts_of_isInit rfl), ?_⟩
  intro p hp
  simp [Instr.outcome, Instr.writes, enablePinFor, twoWireFlag, lineCount, fontFlag, funcSetMask,
    hp, CommandTable.hd44780]

/-- Settles O37: in `UNINIT` only INIT is performed, and its outcome does not depend on the nine
registers; a refusal reads none. -/
theorem unspecifiedRegistersNeverRead : Obligations.UnspecifiedRegistersNeverRead := by
  intro p i s s' t t' hph hsame ht ht'
  have ⟨hphase, hseq, hin, htr, hcomp, hres⟩ := hsame
  have hacc : accepts s'.phase i = accepts s.phase i := by rw [hphase]
  obtain ⟨hok, rfl⟩ | ⟨hno, rfl⟩ := execWith_cases (execWith_of_ran ht)
  · obtain ⟨-, rfl⟩ | ⟨hno, -⟩ := execWith_cases (execWith_of_ran ht')
    · have hi : i.isInit = true := by simpa [accepts, hph] using hok
      rw [Instr.outcome_init_congr hi hsame]
      exact ⟨⟨rfl, rfl, rfl, rfl, rfl, rfl⟩, fun _ => rfl⟩
    · simp [hacc, hok] at hno
  · obtain ⟨hok, -⟩ | ⟨-, rfl⟩ := execWith_cases (execWith_of_ran ht')
    · simp [hacc, hno] at hok
    · exact ⟨⟨hphase, hseq, hin, htr, by simp [hcomp], hres⟩, by simp [hph]⟩

/-- Settles O40: the mask writes of the operations, field by field. -/
theorem registerWriters : Obligations.RegisterWriters := by
  intro p i s t hi ht
  obtain ⟨-, rfl⟩ | ⟨-, rfl⟩ := execWith_cases (execWith_of_ran ht)
  · obtain hw | ⟨hmem, f, on, hw⟩ | ⟨hmem, f, on, hw⟩ := Instr.writes_cases p s hi
    · simp [Instr.outcome, hw]
    · simp [Instr.outcome, hw, hmem]
    · simp [Instr.outcome, hw, hmem]
  · simp

end Sys2Proof.Machine
end

section
/-! The sequencer's steps: what one step writes, what a tick does, the steps of an operation together
(R31, R113, D27), and who changes `PHASE` (R20, R30). -/

namespace Sys2Proof.Machine

open Sys2Proof.Claims

variable {p : Config} {s t : State} {i : Instr} {m : Micro} {n : Nat}

/-! ### One sequencer step -/

theorem State.preClear_eq (s : State) : s.preClear =
    s.emits (if s.twoWire then [.shiftOut s.pinData s.pinClk 0x00] else []) := by
  unfold State.preClear
  split <;> simp [State.shiftOut, State.emit_eq]

/-- What one sequencer step can do: emit events, or one of the register writes, or complete. -/
inductive StepEffect (p : Config) (s : State) : Micro → State → Prop
  | emits (m : Micro) (es : List Event) : StepEffect p s m (s.emits es)
  | configure (d c e : PinId) (lines font : Byte) :
      StepEffect p s (.configure d c e lines font) (s.configure p d c e lines font)
  | updateDctrl (f : DispFlag) (on : Bool) :
      StepEffect p s (.updateDctrl f on) (s.updateDctrl p f on)
  | updateEmode (f : EntryFlag) (on : Bool) :
      StepEffect p s (.updateEmode f on) (s.updateEmode p f on)
  | initDctrl : StepEffect p s .initDctrl (s.initDctrl p)
  | initEmode : StepEffect p s .initEmode (s.initEmode p)
  | becomeReady : StepEffect p s .becomeReady s.becomeReady
  | complete (ret : Byte) : StepEffect p s (.complete ret) (s.complete ret)

theorem perform_effect (p : Config) (m : Micro) (s : State) : StepEffect p s m (m.perform p s) := by
  cases m with
  | configure d c e lines font => exact .configure d c e lines font
  | updateDctrl f on => exact .updateDctrl f on
  | updateEmode f on => exact .updateEmode f on
  | initDctrl => exact .initDctrl
  | initEmode => exact .initEmode
  | becomeReady => exact .becomeReady
  | complete ret => exact .complete ret
  | pinMode role => exact .emits _ [.pinMode (role.pin s)]
  | driveEnable l => exact .emits _ [.pinLevel s.pinEn l]
  | shiftFrame src part =>
    exact .emits _ [.shiftOut s.pinData s.pinClk (part.frame (src.value p s))]
  | preClear => rw [show Micro.perform p .preClear s = _ from State.preClear_eq s]; exact .emits _ _
  | wait us => rw [show Micro.perform p (.wait us) s = _ from State.wait_eq s us]; exact .emits _ _
  | nibbleSettle =>
    rw [show Micro.perform p .nibbleSettle s = _ from State.wait_eq s p.nibbleSettleUs]
    exact .emits _ _

theorem perform_phase (hm : m ≠ .becomeReady) : (m.perform p s).phase = s.phase := by
  have heff := perform_effect p m s
  generalize m.perform p s = u at heff
  cases heff with
  | becomeReady => exact absurd rfl hm
  | _ => rfl

/-- Only the completion writes `SEQ`. -/
theorem perform_seq (p : Config) (m : Micro) (s : State) :
    (m.perform p s).seq = .idle ∨ (m.perform p s).seq = s.seq := by
  have heff := perform_effect p m s
  generalize m.perform p s = u at heff
  cases heff with
  | complete ret => exact .inl rfl
  | _ => exact .inr rfl

/-- Only INIT has a step that makes the block ready (R114). -/
theorem isInit_of_becomeReady_mem (h : .becomeReady ∈ microcode i) : i.isInit = true := by
  cases i with
  | init d c e lines font => rfl
  | _ => simp [microcode, microSend, microFrame] at h

/-! ### One tick -/

/-- A tick in flight: a step of the operation, or past its end the sequencer goes idle. -/
theorem tick_cases (p : Config) (h : s.seq = .running i n) :
    (∃ m, (microcode i)[n]? = some m ∧
      s.tick p = m.perform p { s with seq := .running i (n + 1) }) ∨
    ((microcode i)[n]? = none ∧ s.tick p = { s with seq := .idle }) := by
  cases hm : (microcode i)[n]? with
  | some m => exact .inl ⟨m, rfl, tick_running h hm⟩
  | none => exact .inr ⟨rfl, tick_past_end h hm⟩

theorem tick_inputs (h : s.seq = .running i n) : (s.tick p).inputs = s.inputs := by
  obtain ⟨m, -, ht⟩ | ⟨-, ht⟩ := tick_cases p h
  · rw [ht]; exact (perform_appends p m _).2.2.1
  · rw [ht]

/-- A tick that changes `PHASE` makes the block ready, in an INIT. -/
theorem tick_phase (h : s.seq = .running i n) (hph : (s.tick p).phase ≠ s.phase) :
    (s.tick p).phase = .ready ∧ i.isInit = true := by
  obtain ⟨m, hm, ht⟩ | ⟨-, ht⟩ := tick_cases p h
  · by_cases hmr : m = .becomeReady
    · subst hmr
      exact ⟨by rw [ht]; rfl, isInit_of_becomeReady_mem (List.mem_of_getElem? hm)⟩
    · exact absurd (by rw [ht, perform_phase hmr]) hph
  · exact absurd (by rw [ht]) hph

/-! ### Requests -/

/-- A word decodes to an operation of its own op code (R72). -/
theorem reqOp_of_decode {w : ReqWord} (h : decode w = .ok i) : reqOp w = i.opcode := by
  unfold decode at h
  split at h <;> cases h <;> exact BitVec.eq_of_toNat_eq ‹_›

theorem beginRequest_phase (w : ReqWord) (s : State) : (beginRequest w s).phase = s.phase := by
  unfold beginRequest
  split
  · split <;> rfl
  · rfl

/-! ### The obligations of the step -/

/-- Settles O1, by the definition of the reset state. -/
theorem resetLeavesUninitIdleEmpty : Obligations.ResetLeavesUninitIdleEmpty :=
  ⟨rfl, rfl, rfl, rfl, rfl, rfl, rfl, rfl, rfl, rfl, rfl, rfl, rfl, rfl⟩

/-- Settles O4: each input of an idle and of a busy port. -/
theorem idleStuttersAndBusyPortWaits : Obligations.IdleStuttersAndBusyPortWaits := by
  refine ⟨?idle, ?idleWait, ?busy, ?busyWait, ?busyRequest⟩
  case idle =>
    exact fun s hseq hin => stepsTo_of_stepWith fun p => by
      rw [stepWith_idle hseq, stepIdle_nothing hin]
  case idleWait =>
    exact fun s rest hseq hin => stepsTo_of_stepWith fun p => by
      rw [stepWith_idle hseq, stepIdle, hin]
  case busy =>
    exact fun s i n hseq hin => stepsTo_of_stepWith fun p => by
      rw [stepWith_running hseq, stepRunning, hin]
  case busyWait =>
    exact fun s i n rest hseq hin => stepsTo_of_stepWith fun p => by
      rw [stepWith_running hseq, stepRunning, hin]
  case busyRequest =>
    refine fun s i n w rest hseq hin => ⟨stepsTo_of_stepWith fun p => ?_, fun p => tick_inputs hseq⟩
    rw [stepWith_running hseq, stepRunning]
    obtain hin | hin := hin <;> rw [hin]

/-- Settles O54: each input of an idle port, and each input with an operation in flight. -/
theorem phaseChangesOnlyByResetAndInit : Obligations.PhaseChangesOnlyByResetAndInit := by
  intro p s t ht hph
  replace ht := stepWith_of_stepped ht
  cases hseq : s.seq with
  | idle =>
    rw [stepWith_idle hseq] at ht
    obtain ⟨-, rfl⟩ | ⟨w, rest, i, hin, hdec, hrun⟩ | ⟨w, rest, e, -, -, rfl⟩ | ⟨w, rest, -, rfl⟩ |
      ⟨rest, -, rfl⟩ | ⟨rest, hin, rfl⟩ | ⟨w, rest, hin, rfl⟩ := stepIdle_cases ht
    · exact absurd rfl hph
    · obtain ⟨-, rfl⟩ | ⟨-, rfl⟩ := execWith_cases hrun
      · rw [Instr.outcome_phase] at hph
        have hi : i.isInit = true := by
          by_contra hi
          exact hph (if_neg hi)
        obtain ⟨d, c, e, lines, font, rfl⟩ := Instr.eq_init hi
        exact .inr (.inl ⟨rfl, rfl, w, hin, reqOp_of_decode hdec⟩)
      · exact absurd rfl hph
    · exact absurd rfl hph
    · exact absurd (beginRequest_phase w _) hph
    · exact absurd rfl hph
    · exact .inl ⟨rfl, .inl hin⟩
    · exact .inl ⟨rfl, .inr ⟨w, hin⟩⟩
  | running i n =>
    rw [stepWith_running hseq] at ht
    injection ht with ht
    subst ht
    obtain ⟨rest, hin, ht⟩ | ⟨rest, hin, ht⟩ | ht := stepRunning_cases s p
    · rw [ht]
      exact .inl ⟨rfl, hin⟩
    · rw [ht] at hph ⊢
      obtain ⟨hr, hi⟩ := tick_phase (s := { s with inputs := rest }) hseq hph
      exact .inr (.inr ⟨hr, i, n, rfl, hi⟩)
    · rw [ht] at hph ⊢
      obtain ⟨hr, hi⟩ := tick_phase hseq hph
      exact .inr (.inr ⟨hr, i, n, rfl, hi⟩)

end Sys2Proof.Machine
end

section
/-! The two grains (R31, R113, D27): an operation taken whole is its sequencer steps, one after the
other. -/

namespace Sys2Proof.Machine

open Sys2Proof.Claims

variable {p : Config} {s t : State} {i : Instr} {m : Micro} {n : Nat}

/-- The steps of INIT's states are the atomic procedures of its sequence. -/
theorem performAll_init (p : Config) (d c e : PinId) (lines font : Byte) (s : State) :
    performAll p (microcode (.init d c e lines font)) s =
      (((((s.configure p d c e lines font).pinModes.handshake p).displaySetup
        p).becomeReady).complete 0) := by
  simp [microcode, InitState.all, InitState.steps, performAll_send, performAll_nibble,
    Micro.perform, State.handshake, State.displaySetup, State.pinModes, PinRole.pin]

/-- An accepted operation does what its sequencer steps do. -/
theorem execWith_eq_performAll (hacc : accepts s.phase i = true) :
    execWith p i s = .next (performAll p (microcode i) s) := by
  cases hi : i.isInit with
  | true =>
    obtain ⟨d, c, e, lines, font, rfl⟩ := Instr.eq_init hi
    rw [performAll_init]; rfl
  | false =>
    have hr := ready_of_accepts hacc hi
    cases i with
    | init d c e lines font => cases hi
    | clear | home =>
      simp [microcode, performAll_send, execWith, execClear, execHome, ifReady_of_ready _ hr,
        Micro.perform]
    | createChar location g0 g1 g2 g3 g4 g5 g6 g7 =>
      simp only [microcode, performAll_append, performAll_rows, performAll_send, execWith,
        execCreateChar, ifReady_of_ready _ hr]
      rfl
    | _ =>
      simp only [microcode, performAll_append, performAll_cons, performAll_send]
      exact ifReady_of_ready _ hr

/-- Ticks run the steps of an operation one by one; only the position in `SEQ` differs. -/
theorem ticks_eq_performAll {ms : List Micro} {ret : Byte}
    (hms : microcode i = ms ++ [.complete ret]) (hall : ∀ m ∈ ms, m.isComplete = false)
    (s : State) (k : Nat) (hk : k ≤ ms.length) :
    (s.setSeq (.running i 0)).ticks k p =
      (performAll p (ms.take k) s).setSeq (.running i k) := by
  induction k with
  | zero => rfl
  | succ k ih =>
    have hget : (microcode i)[k]? = some ms[k] := by
      rw [hms, List.getElem?_append_left hk, List.getElem?_eq_getElem hk]
    rw [ticks_succ, ih (Nat.le_of_succ_le hk), tick_running rfl hget,
      List.take_succ_eq_append_getElem hk, performAll_append]
    exact perform_setSeq p (hall _ (List.getElem_mem hk)) (.running i (k + 1))
      (performAll p (ms.take k) s)

/-- As many ticks as an operation has steps run the whole operation. -/
theorem ticks_microcode (p : Config) (i : Instr) (s : State) :
    (s.setSeq (.running i 0)).ticks (microcode i).length p = performAll p (microcode i) s := by
  obtain ⟨ms, ret, hms, hall⟩ := microcode_eq i
  have hall' : ∀ m ∈ ms, m.isComplete = false := by simpa using hall
  have hget : (microcode i)[ms.length]? = some (.complete ret) := by simp [hms]
  have hlen : (microcode i).length = ms.length + 1 := by simp [hms]
  rw [hlen, ticks_succ, ticks_eq_performAll hms hall' s _ le_rfl, tick_running rfl hget,
    List.take_length, hms, performAll_append]
  rfl

/-- Settles O50: the ticks run the operation's steps, which are its atomic meaning. -/
theorem sequencerRefinesOperations : Obligations.SequencerRefinesOperations := by
  intro i s _ hacc
  exact performs_of_execWith fun p =>
    (execWith_eq_performAll hacc).trans (congrArg _ (ticks_microcode p i s).symm)

end Sys2Proof.Machine
end

section
/-! The invariant of the registers and the sequencer (R31, R34, R35): every sequencer step keeps what
was established and establishes what it writes, so an operation, whole or in flight, keeps it. -/

namespace Sys2Proof.Machine

open Sys2Proof.Claims

variable {p : Config} {s t : State} {i : Instr} {m : Micro} {n : Nat}

/-! ### Coherent registers -/

/-- The registers `ConfigCoherent` speaks of. -/
def State.configRegs (s : State) : PinId × PinId × Bool × BitVec 2 × Bool × Byte :=
  (s.pinData, s.pinEn, s.twoWire, s.numLines, s.font, s.fset)

theorem ConfigCoherent.congr (h : ConfigCoherent s) (heq : t.configRegs = s.configRegs) :
    ConfigCoherent t := by
  obtain ⟨hhigh, hlow, hlines, hfl, hff, htw⟩ := h
  simp only [State.configRegs, Prod.mk.injEq] at heq
  obtain ⟨h1, h2, h3, h4, h5, h6⟩ := heq
  rw [← h6] at hhigh hlow hfl hff
  rw [← h4] at hlines hfl
  rw [← h5] at hff
  rw [← h3, ← h2, ← h1] at htw
  exact ⟨hhigh, hlow, hlines, hfl, hff, htw⟩

theorem lineCount_cases (lines : Byte) : lineCount lines = 1 ∨ lineCount lines = 2 := by
  unfold lineCount
  split
  · exact .inr rfl
  · exact .inl rfl

/-- INIT's configuration writes make the registers agree (R35, R103). -/
theorem configCoherent_configure (hp : p.cmd = .hd44780) (d c e : PinId) (lines font : Byte)
    (s : State) : ConfigCoherent (s.configure p d c e lines font) := by
  have hmask : ∀ (k : BitVec 2) (f : Bool), k = 1 ∨ k = 2 →
      (funcSetMask .hd44780 k f).extractLsb' 4 4 = 0 ∧
      (funcSetMask .hd44780 k f).extractLsb' 0 2 = 0 ∧
      ((funcSetMask .hd44780 k f).getLsbD 3 = true ↔ k = 2) ∧
      (funcSetMask .hd44780 k f).getLsbD 2 = f := by decide
  obtain ⟨hhigh, hlow, hlines, hfont⟩ := hmask _ (fontFlag font) (lineCount_cases lines)
  refine ⟨?_, ?_, lineCount_cases lines, ?_, ?_, ?_⟩ <;>
    simp only [State.configure_fset, State.configure_numLines, State.configure_font,
      State.configure_twoWire, State.configure_pinEn, State.configure_pinData, hp]
  · exact hhigh
  · exact hlow
  · exact hlines
  · exact hfont
  · exact fun htw => if_pos htw

/-- Bits that are zero in a mask and in the constant stay zero in a read-modify-write (R34, R85). -/
theorem extractLsb'_updateBit {mask bit : Byte} {start len : Nat}
    (hm : mask.extractLsb' start len = 0) (hb : bit.extractLsb' start len = 0) (on : Bool) :
    (updateBit mask bit on).extractLsb' start len = 0 := by
  cases on
  · simp [updateBit, clearBits, BitVec.extractLsb'_and, hm]
  · simp [updateBit, setBits, BitVec.extractLsb'_or, hm, hb]

/-! ### One sequencer step -/

/-- A step establishes what it writes. -/
theorem perform_established (hp : p.cmd = .hd44780) (m : Micro) (s : State) :
    m.Established (m.perform p s) := by
  cases m with
  | configure d c e lines font => exact configCoherent_configure hp d c e lines font s
  | initDctrl =>
    change p.cmd.dcDisplay.extractLsb' 3 5 = 0
    rw [hp]; decide
  | initEmode =>
    change p.cmd.emLeft.extractLsb' 2 6 = 0
    rw [hp]; decide
  | _ => trivial

theorem perform_configCoherent (hp : p.cmd = .hd44780) (m : Micro) (h : ConfigCoherent s) :
    ConfigCoherent (m.perform p s) := by
  have heff := perform_effect p m s
  generalize m.perform p s = u at heff ⊢
  cases heff with
  | configure d c e lines font => exact configCoherent_configure hp d c e lines font s
  | _ => exact h.congr rfl

theorem perform_dctrlOk (hp : p.cmd = .hd44780) (m : Micro) (h : DctrlOk s) :
    DctrlOk (m.perform p s) := by
  have heff := perform_effect p m s
  generalize m.perform p s = u at heff ⊢
  cases heff with
  | initDctrl => exact perform_established hp .initDctrl s
  | updateDctrl f on =>
    exact extractLsb'_updateBit h (by rw [hp]; cases f <;> decide) on
  | _ => exact h

theorem perform_emodeOk (hp : p.cmd = .hd44780) (m : Micro) (h : EmodeOk s) :
    EmodeOk (m.perform p s) := by
  have heff := perform_effect p m s
  generalize m.perform p s = u at heff ⊢
  cases heff with
  | initEmode => exact perform_established hp .initEmode s
  | updateEmode f on =>
    exact extractLsb'_updateBit h (by rw [hp]; cases f <;> decide) on
  | _ => exact h

/-- A step keeps what an earlier one has established. -/
theorem perform_keeps_established (hp : p.cmd = .hd44780) (m : Micro) {m' : Micro}
    (h : m'.Established s) : m'.Established (m.perform p s) := by
  cases m' with
  | configure d c e lines font => exact perform_configCoherent hp m h
  | initDctrl => exact perform_dctrlOk hp m h
  | initEmode => exact perform_emodeOk hp m h
  | _ => trivial

/-! ### Lists of steps -/

/-- What the invariant asks of the registers in `READY` (R34, R35). -/
def RegistersOk (s : State) : Prop := ConfigCoherent s ∧ DctrlOk s ∧ EmodeOk s

theorem perform_registersOk (hp : p.cmd = .hd44780) (m : Micro) (h : RegistersOk s) :
    RegistersOk (m.perform p s) := by
  obtain ⟨hc, hd, he⟩ := h
  exact ⟨perform_configCoherent hp m hc, perform_dctrlOk hp m hd, perform_emodeOk hp m he⟩

theorem performAll_registersOk (hp : p.cmd = .hd44780) (ms : List Micro) (h : RegistersOk s) :
    RegistersOk (performAll p ms s) := by
  induction ms generalizing s with
  | nil => exact h
  | cons m ms ih => exact ih (perform_registersOk hp m h)

theorem performAll_keeps_established (hp : p.cmd = .hd44780) (ms : List Micro)
    (h : m.Established s) : m.Established (performAll p ms s) := by
  induction ms generalizing s with
  | nil => exact h
  | cons m' ms ih => exact ih (perform_keeps_established hp m' h)

/-- After a list of steps all of them are established. -/
theorem performAll_established (hp : p.cmd = .hd44780) (ms : List Micro) (s : State) :
    ∀ m ∈ ms, m.Established (performAll p ms s) := by
  induction ms generalizing s with
  | nil => simp
  | cons m' ms ih =>
    intro m hm
    obtain rfl | hm := List.mem_cons.1 hm
    · exact performAll_keeps_established hp ms (perform_established hp m s)
    · exact ih _ m hm

/-- Every step of INIT before it makes the block ready (R112). -/
def initSteps (d c e : PinId) (lines font : Byte) : List Micro :=
  InitState.all.flatMap (InitState.steps d c e lines font)

theorem registersOk_of_initSteps {d c e : PinId} {lines font : Byte}
    (h : ∀ m ∈ initSteps d c e lines font, m.Established s) : RegistersOk s :=
  ⟨h (.configure d c e lines font) (by simp [initSteps, InitState.all, InitState.steps]),
    h .initDctrl (by simp [initSteps, InitState.all, InitState.steps]),
    h .initEmode (by simp [initSteps, InitState.all, InitState.steps])⟩

/-- When the block becomes ready all steps of the INIT before that are done. -/
theorem initSteps_passed {d c e : PinId} {lines font : Byte}
    (h : (microcode (.init d c e lines font))[n]? = some .becomeReady) :
    ∀ m ∈ initSteps d c e lines font, m ∈ (microcode (.init d c e lines font)).take n := by
  have hnot : .becomeReady ∉ initSteps d c e lines font := by
    simp [initSteps, InitState.all, InitState.steps, microSend, microNibble, microFrame]
  have hn : (initSteps d c e lines font).length ≤ n := by
    by_contra hlt
    rw [microcode, List.getElem?_append_left (by simpa [initSteps] using hlt)] at h
    exact hnot (List.mem_of_getElem? h)
  intro m hm
  have htake : (initSteps d c e lines font).take n = initSteps d c e lines font :=
    List.take_of_length_le hn
  rw [microcode, List.take_append]
  exact List.mem_append_left _ (htake.symm ▸ hm)

/-! ### Steps of the machine -/

/-- With the sequencer idle the invariant speaks of the registers in `READY` only. -/
theorem BlockInv.of_idle (hp : p.cmd = .hd44780) (hseq : s.seq = .idle)
    (h : s.phase = .ready → RegistersOk s) : BlockInv p s where
  table := hp
  config hph := (h hph).1
  dctrl hph := (h hph).2.1
  emode hph := (h hph).2.2
  accepted i n hrun := by rw [hseq] at hrun; cases hrun
  passed i n hrun := by rw [hseq] at hrun; cases hrun

/-- With an operation in flight it speaks of the steps passed as well. -/
theorem BlockInv.of_running (hp : p.cmd = .hd44780) (hseq : s.seq = .running i n)
    (h : s.phase = .ready → RegistersOk s) (hacc : accepts s.phase i = true)
    (hpassed : ∀ m ∈ (microcode i).take n, m.Established s) : BlockInv p s where
  table := hp
  config hph := (h hph).1
  dctrl hph := (h hph).2.1
  emode hph := (h hph).2.2
  accepted i' n' hrun := by rw [hseq] at hrun; cases hrun; exact hacc
  passed i' n' hrun := by rw [hseq] at hrun; cases hrun; exact hpassed

theorem BlockInv.registersOk (h : BlockInv p s) (hph : s.phase = .ready) : RegistersOk s :=
  ⟨h.config hph, h.dctrl hph, h.emode hph⟩

theorem RegistersOk.congr (h : RegistersOk s) (hc : t.configRegs = s.configRegs)
    (hd : t.dctrl = s.dctrl) (he : t.emode = s.emode) : RegistersOk t := by
  obtain ⟨hconfig, hdctrl, hemode⟩ := h
  refine ⟨hconfig.congr hc, ?_, ?_⟩
  · rwa [DctrlOk, hd]
  · rwa [EmodeOk, he]

theorem Micro.Established.congr (h : m.Established s) (hc : t.configRegs = s.configRegs)
    (hd : t.dctrl = s.dctrl) (he : t.emode = s.emode) : m.Established t := by
  cases m with
  | configure => exact ConfigCoherent.congr h hc
  | initDctrl => change DctrlOk t; rw [DctrlOk, hd]; exact h
  | initEmode => change EmodeOk t; rw [EmodeOk, he]; exact h
  | _ => trivial

/-- The invariant does not speak of the inputs. -/
theorem BlockInv.setInputs (h : BlockInv p s) (rest : List HostInput) :
    BlockInv p { s with inputs := rest } where
  table := h.table
  config hph := (h.config hph).congr rfl
  dctrl := h.dctrl
  emode := h.emode
  accepted := h.accepted
  passed i n hrun m hm := (h.passed i n hrun m hm).congr rfl rfl rfl

/-- Reset leaves nothing the invariant asks for (R201). -/
theorem blockInv_applyReset (hp : p.cmd = .hd44780) (s : State) : BlockInv p s.applyReset :=
  .of_idle hp rfl nofun

/-- An operation taken whole keeps the invariant. -/
theorem BlockInv.execWith (h : BlockInv p s) (hseq : s.seq = .idle)
    (hrun : execWith p i s = .next t) : BlockInv p t := by
  obtain ⟨hacc, ht⟩ | ⟨-, rfl⟩ := execWith_cases hrun
  · have hpa : t = performAll p (microcode i) s := by
      rw [execWith_eq_performAll hacc] at hrun
      cases hrun; rfl
    have hidle : t.seq = .idle := by rw [ht]; rfl
    refine .of_idle h.table hidle fun _ => ?_
    rw [hpa]
    cases hph : s.phase with
    | ready => exact performAll_registersOk h.table _ (h.registersOk hph)
    | uninit =>
      have hi : i.isInit = true := by simpa [accepts, hph] using hacc
      obtain ⟨d, c, e, lines, font, rfl⟩ := Instr.eq_init hi
      have hall := performAll_established h.table (microcode (.init d c e lines font)) s
      exact registersOk_of_initSteps fun m hm => hall m (List.mem_append_left _ hm)
  · exact .of_idle h.table hseq fun hph => (h.registersOk hph).congr rfl rfl rfl

/-- A request taken step by step keeps the invariant: no step is passed yet. -/
theorem BlockInv.beginRequest (h : BlockInv p s) (hseq : s.seq = .idle) (w : ReqWord) :
    BlockInv p (beginRequest w s) := by
  have hrefuse : ∀ why, BlockInv p (s.refuse why) := fun why =>
    .of_idle h.table hseq fun hph => (h.registersOk hph).congr rfl rfl rfl
  unfold Machine.beginRequest
  split
  next i _ =>
    split
    next hacc =>
      exact .of_running h.table rfl (fun hph => (h.registersOk hph).congr rfl rfl rfl) hacc
        (by simp)
    next => exact hrefuse _
  next => exact hrefuse _

/-- A sequencer step of an operation in flight keeps the registers in order: the block becomes ready
only when all of INIT's writes are done. -/
theorem perform_registersOk_of_passed (hp : p.cmd = .hd44780) (hm : (microcode i)[n]? = some m)
    (hpassed : ∀ m' ∈ (microcode i).take n, m'.Established s)
    (hregs : s.phase = .ready → RegistersOk s) (hph : (m.perform p s).phase = .ready) :
    RegistersOk (m.perform p s) := by
  refine perform_registersOk hp m ?_
  by_cases hmr : m = .becomeReady
  · subst hmr
    obtain ⟨d, c, e, lines, font, rfl⟩ :=
      Instr.eq_init (isInit_of_becomeReady_mem (List.mem_of_getElem? hm))
    exact registersOk_of_initSteps fun m' hm' => hpassed m' (initSteps_passed hm m' hm')
  · exact hregs (by rwa [perform_phase hmr] at hph)

/-- A tick keeps the invariant: it keeps what is established and establishes its own step. -/
theorem BlockInv.tick (h : BlockInv p s) : BlockInv p (s.tick p) := by
  cases hseq : s.seq with
  | idle => rwa [State.tick, hseq]
  | running i n =>
    have hregs : s.phase = .ready → ∀ q, RegistersOk { s with seq := q } :=
      fun hph q => (h.registersOk hph).congr rfl rfl rfl
    obtain ⟨m, hm, ht⟩ | ⟨-, ht⟩ := tick_cases p hseq
    · have hpassed : ∀ m' ∈ (microcode i).take n,
          m'.Established { s with seq := .running i (n + 1) } :=
        fun m' hm' => (h.passed i n hseq m' hm').congr rfl rfl rfl
      have hready := perform_registersOk_of_passed h.table hm hpassed (hregs · _)
      rw [ht]
      obtain hq | hq := perform_seq p m { s with seq := .running i (n + 1) }
      · exact .of_idle h.table hq hready
      · refine .of_running h.table hq hready ?_ fun m' hm' => ?_
        · by_cases hmr : m = .becomeReady
          · subst hmr; rfl
          · rw [perform_phase hmr]; exact h.accepted i n hseq
        · rw [List.take_add_one, hm, Option.toList_some, List.mem_append, List.mem_singleton] at hm'
          obtain hm' | rfl := hm'
          · exact perform_keeps_established h.table m (hpassed m' hm')
          · exact perform_established h.table m' _
    · rw [ht]
      exact .of_idle h.table rfl (hregs · _)

/-- Settles O46: after reset the block is idle in `UNINIT`, where the invariant asks nothing of the
registers. -/
theorem invariantAtReset : Obligations.InvariantAtReset :=
  ⟨.of_idle rfl rfl nofun, fun _ hp => .of_idle hp rfl nofun⟩

/-- Settles O47: each input of an idle port, and each input with an operation in flight. -/
theorem invariantKeptByEveryStep : Obligations.InvariantKeptByEveryStep := by
  intro p s t h ht
  replace ht := stepWith_of_stepped ht
  cases hseq : s.seq with
  | idle =>
    rw [stepWith_idle hseq] at ht
    obtain ⟨-, rfl⟩ | ⟨w, rest, i, -, -, hrun⟩ | ⟨w, rest, e, -, -, rfl⟩ | ⟨w, rest, -, rfl⟩ |
      ⟨rest, -, rfl⟩ | ⟨rest, -, rfl⟩ | ⟨w, rest, -, rfl⟩ := stepIdle_cases ht
    · exact h
    · exact (h.setInputs rest).execWith hseq hrun
    · exact .of_idle h.table hseq fun hph => (h.registersOk hph).congr rfl rfl rfl
    · exact (h.setInputs rest).beginRequest hseq w
    · exact h.setInputs rest
    · exact blockInv_applyReset h.table _
    · exact blockInv_applyReset h.table _
  | running i n =>
    rw [stepWith_running hseq] at ht
    injection ht with ht
    subst ht
    obtain ⟨rest, -, ht⟩ | ⟨rest, -, ht⟩ | ht := stepRunning_cases s p
    · rw [ht]; exact blockInv_applyReset h.table _
    · rw [ht]; exact (h.setInputs rest).tick
    · rw [ht]; exact h.tick

end Sys2Proof.Machine
end

section
/-! Mask coherence (R33): what a reader of the trace takes from a send and from INIT's handshake, and
that every operation leaves the controller with the commands of the cached masks. -/

namespace Sys2Proof.Machine

open Sys2Proof.Claims

/-! ### Frames as a reader sees them (R58, R76) -/

theorem frameNibble_upperFrame (value : Byte) (isData : Bool) :
    frameNibble (upperFrame value isData) = value.extractLsb' 4 4 := by
  ext k hk
  obtain rfl | rfl | rfl | rfl : k = 0 ∨ k = 1 ∨ k = 2 ∨ k = 3 := by omega
  all_goals cases isData <;>
    simp [frameNibble, upperFrame, rsBit, Config.frameRs, Config.frameEn, Config.frameDataMask]

theorem frameNibble_lowerFrame (value : Byte) (isData : Bool) :
    frameNibble (lowerFrame value isData) = value.extractLsb' 0 4 := by
  ext k hk
  obtain rfl | rfl | rfl | rfl : k = 0 ∨ k = 1 ∨ k = 2 ∨ k = 3 := by omega
  all_goals cases isData <;>
    simp [frameNibble, lowerFrame, rsBit, Config.frameRs, Config.frameEn, Config.frameDataMask]

theorem frameIsData_upperFrame (value : Byte) (isData : Bool) :
    frameIsData (upperFrame value isData) = isData := by
  cases isData <;>
    simp [frameIsData, upperFrame, rsBit, Config.frameRs, Config.frameEn, Config.frameDataMask]

theorem frameIsData_lowerFrame (value : Byte) (isData : Bool) :
    frameIsData (lowerFrame value isData) = isData := by
  cases isData <;>
    simp [frameIsData, lowerFrame, rsBit, Config.frameRs, Config.frameEn, Config.frameDataMask]

theorem extractLsb'_append_nibbles (value : Byte) :
    value.extractLsb' 4 4 ++ value.extractLsb' 0 4 = value := by
  exact (BitVec.extractLsb'_append_extractLsb'_eq_extractLsb' (start₁ := 0) (len₁ := 4) rfl).trans
    BitVec.extractLsb'_eq_self

section reader
variable (t : CommandTable) (mixed : Bool) (s : State) (r : Reader)

/-- A reader that waits for a high nibble takes the byte of a send (R59, R79). -/
theorem Reader.read_sendEvents (h4 : r.iface = .fourHigh) (hr : r.raised = false) (value : Byte)
    (isData : Bool) : r.read t mixed s.pinEn (s.sendEvents value isData) =
      { sr := lowerFrame value isData
        raised := false
        strobes := r.strobes ++ [upperFrame value isData, lowerFrame value isData]
        iface := Interface.afterByte t ⟨value, isData⟩ .fourHigh
        taken := r.taken ++ [⟨value, isData⟩] } := by
  have hdelay : ∀ q : Reader, q.read t mixed s.pinEn [.delay 40] = q := fun _ => rfl
  rw [State.sendEvents, Reader.read_append, Reader.read_append, hdelay,
    Reader.read_frame _ _ _ _ _ hr, Reader.read_frame _ _ _ _ _ rfl]
  simp [Reader.strobe, h4, Reader.take, frameNibble_upperFrame, frameNibble_lowerFrame,
    frameIsData_upperFrame, frameIsData_lowerFrame, extractLsb'_append_nibbles]

/-- A nibble-only send is one strobe of its frame, followed by waiting. -/
theorem Reader.read_nibbleEvents (p : Config) (hr : r.raised = false) (value : Byte) :
    (r.read t mixed s.pinEn (s.nibbleEvents p value)).iface =
      r.iface.afterFrame t mixed (nibbleFrame value) ∧
    (r.read t mixed s.pinEn (s.nibbleEvents p value)).raised = false := by
  rw [State.nibbleEvents, Reader.read_append, Reader.read_wait, Reader.read_frame _ _ _ _ _ hr]
  exact ⟨Reader.strobe_iface .., rfl⟩

end reader

/-! ### The handshake (R104 to R106, R210) -/

section handshake
variable (mixed : Bool)

theorem Interface.afterByte_cases (t : CommandTable) (b : Sent) :
    Interface.afterByte t b .fourHigh = .fourHigh ∨
      Interface.afterByte t b .fourHigh = .eightBit := by
  unfold Interface.afterByte
  split
  · split
    · exact .inl rfl
    · exact .inr rfl
  · exact .inl rfl

/-- Three 8-bit function sets lead from every interface state to the 8-bit interface: from the
middle of a byte the first completes whatever byte was begun, from a byte boundary two of them are
one function set. -/
theorem Interface.afterFrame_funcSet8 (iface : Interface) :
    (((iface.afterFrame .hd44780 mixed 0x98).afterFrame .hd44780 mixed 0x98).afterFrame
      .hd44780 mixed 0x98) = .eightBit := by
  have height : Interface.afterFrame .hd44780 mixed 0x98 .eightBit = .eightBit := rfl
  have hlow : Interface.afterFrame .hd44780 mixed 0x98 (.fourLow 0x98) = .eightBit := by
    decide +revert
  have hhigh : Interface.afterFrame .hd44780 mixed 0x98 .fourHigh = .fourLow 0x98 := rfl
  cases iface with
  | eightBit => rw [height, height, height]
  | fourHigh => rw [hhigh, hlow, height]
  | fourLow upper =>
    obtain h | h := Interface.afterByte_cases .hd44780 ⟨frameNibble upper ++ frameNibble 0x98,
      if frameIsData upper == frameIsData 0x98 then frameIsData 0x98 else mixed⟩
    · rw [Interface.afterFrame, h, hhigh, hlow]
    · rw [Interface.afterFrame, h, height, height]

/-- The handshake synchronises every reader: it ends at a byte boundary of the 4-bit interface. -/
theorem Reader.read_handshakeEvents {p : Config} (hp : p.cmd = .hd44780) (s : State) (r : Reader)
    (hr : r.raised = false) :
    (r.read p.cmd mixed s.pinEn (s.handshakeEvents p)).iface = .fourHigh ∧
    (r.read p.cmd mixed s.pinEn (s.handshakeEvents p)).raised = false := by
  have hfour : Interface.afterFrame .hd44780 mixed 0x90 .eightBit = .fourHigh := by decide +revert
  simp only [State.handshakeEvents, Reader.read_append, Reader.read_wait]
  have hfs8 : nibbleFrame (p.cmd.funcSet ||| p.cmd.fs8Bit) = 0x98 := by rw [hp]; decide
  have hfs4 : nibbleFrame p.cmd.funcSet = 0x90 := by rw [hp]; decide
  obtain ⟨h1, hr1⟩ := r.read_nibbleEvents p.cmd mixed s p hr (p.cmd.funcSet ||| p.cmd.fs8Bit)
  obtain ⟨h2, hr2⟩ := Reader.read_nibbleEvents p.cmd mixed s _ p hr1 (p.cmd.funcSet ||| _)
  obtain ⟨h3, hr3⟩ := Reader.read_nibbleEvents p.cmd mixed s _ p hr2 (p.cmd.funcSet ||| _)
  obtain ⟨h4, hr4⟩ := Reader.read_nibbleEvents p.cmd mixed s _ p hr3 p.cmd.funcSet
  exact ⟨by rw [h4, h3, h2, h1, hfs8, hfs4, hp, Interface.afterFrame_funcSet8, hfour], hr4⟩

end handshake

/-! ### The commands a controller has latched -/

/-- Is the byte the command whose base constant is `base`, as `lastCommand` picks it? -/
def Sent.isCommand (base : Byte) (b : Sent) : Bool := !b.isData && isCommandOf base b.value

/-- What the last command with base constant `base` is once the byte `b` is taken. -/
def latch (base : Byte) (b : Sent) (last : Option Byte) : Option Byte :=
  if b.isCommand base then some b.value else last

section latch
variable {t : CommandTable} {base : Byte} {b : Sent} {last : Option Byte}

theorem latch_of_command (h : b.isCommand base = true) : latch base b last = some b.value :=
  if_pos h

theorem latch_of_other (h : b.isCommand base = false) : latch base b last = last := by
  simp [latch, h]

theorem afterByte_of_other (h : b.isCommand t.funcSet = false) (stay : Interface) :
    Interface.afterByte t b stay = stay := by
  rw [Interface.afterByte, ← Sent.isCommand, h]
  rfl

theorem lastCommand_eq (base : Byte) (taken : List Sent) : lastCommand base taken =
    ((taken.filter (Sent.isCommand base)).getLast?).map Sent.value := rfl

theorem lastCommand_append (taken : List Sent) :
    lastCommand base (taken ++ [b]) = latch base b (lastCommand base taken) := by
  rw [lastCommand_eq, lastCommand_eq, List.filter_append]
  cases h : b.isCommand base <;> simp [latch, h]

end latch

/-- A reader at a byte boundary of the 4-bit interface, and the last command it has taken of each of
the three kinds of mode command (R33). -/
structure Reader.Latched (t : CommandTable) (dispCtrl entryMode funcSet : Option Byte)
    (r : Reader) : Prop where
  iface : r.iface = .fourHigh
  raised : r.raised = false
  dispCtrl : lastCommand t.dispCtrl r.taken = dispCtrl
  entryMode : lastCommand t.entryMode r.taken = entryMode
  funcSet : lastCommand t.funcSet r.taken = funcSet

/-- A reader that has latched the commands of the masks of `s`. -/
def Reader.LatchedMasks (p : Config) (s : State) (r : Reader) : Prop :=
  r.Latched p.cmd (some (p.cmd.dispCtrl ||| s.dctrl)) (some (p.cmd.entryMode ||| s.emode))
    (some (p.cmd.funcSet ||| s.fset))

variable {p : Config} {s t : State} {i : Instr} {mixed : Bool} {r : Reader} {dc em fs : Option Byte}

theorem maskCoherent_iff : MaskCoherent p s ↔
    ∀ mixed (r : Reader), (r.read p.cmd mixed s.pinEn s.trace).LatchedMasks p s := by
  refine forall_congr' fun mixed => forall_congr' fun r => ⟨?_, ?_⟩
  · rintro ⟨h4, hr, hdc, hem, hfs⟩
    exact ⟨h4, hr, hdc, hem, hfs⟩
  · rintro ⟨h4, hr, hdc, hem, hfs⟩
    exact ⟨h4, hr, hdc, hem, hfs⟩

/-- A send that selects no 8-bit interface moves the latches by its byte. -/
theorem Reader.Latched.read_send {t : CommandTable} (h : r.Latched t dc em fs) (b : Sent)
    (hb : Interface.afterByte t b .fourHigh = .fourHigh) (s : State) :
    (r.read t mixed s.pinEn (s.sendEvents b.value b.isData)).Latched t
      (latch t.dispCtrl b dc) (latch t.entryMode b em) (latch t.funcSet b fs) := by
  obtain ⟨h4, hr, rfl, rfl, rfl⟩ := h
  rw [Reader.read_sendEvents t mixed s r h4 hr]
  exact ⟨hb, rfl, lastCommand_append _, lastCommand_append _, lastCommand_append _⟩

/-- A byte that is no mode command: data, or another command (R33, R212). -/
def Sent.Quiet (t : CommandTable) (b : Sent) : Prop :=
  b.isData = true ∨ isModeCommand t b.value = false

theorem Sent.Quiet.isCommand_eq_false {t : CommandTable} {b : Sent} (h : b.Quiet t) :
    b.isCommand t.dispCtrl = false ∧ b.isCommand t.entryMode = false ∧
    b.isCommand t.funcSet = false := by
  obtain hd | hm := h
  · simp [Sent.isCommand, hd]
  · simp only [isModeCommand, Bool.or_eq_false_iff] at hm
    obtain ⟨⟨hdc, hem⟩, hfs⟩ := hm
    simp [Sent.isCommand, hdc, hem, hfs]

theorem Reader.Latched.read_quiet {t : CommandTable} (h : r.Latched t dc em fs) {b : Sent}
    (hb : b.Quiet t) (s : State) :
    (r.read t mixed s.pinEn (s.sendEvents b.value b.isData)).Latched t dc em fs := by
  obtain ⟨hdc, hem, hfs⟩ := hb.isCommand_eq_false
  have hread := h.read_send (mixed := mixed) b (afterByte_of_other hfs _) s
  rwa [latch_of_other hdc, latch_of_other hem, latch_of_other hfs] at hread

theorem Reader.Latched.read_quiets {t : CommandTable} (h : r.Latched t dc em fs) {bs : List Sent}
    (hbs : ∀ b ∈ bs, b.Quiet t) (s : State) :
    (r.read t mixed s.pinEn (bs.flatMap fun b => s.sendEvents b.value b.isData)).Latched t
      dc em fs := by
  induction bs generalizing r with
  | nil => exact h
  | cons b bs ih =>
    rw [List.flatMap_cons, Reader.read_append]
    exact ih (h.read_quiet (hbs b (by simp)) s) fun b' hb' => hbs b' (by simp [hb'])

/-! ### The mode commands of the default table (log 5) -/

section modeCommands
open CommandTable (hd44780)

theorem dispCtrl_command : ∀ m : Byte, m.extractLsb' 3 5 = 0 →
    Sent.isCommand hd44780.dispCtrl ⟨hd44780.dispCtrl ||| m, false⟩ = true ∧
    Sent.isCommand hd44780.entryMode ⟨hd44780.dispCtrl ||| m, false⟩ = false ∧
    Sent.isCommand hd44780.funcSet ⟨hd44780.dispCtrl ||| m, false⟩ = false := by
  decide

theorem entryMode_command : ∀ m : Byte, m.extractLsb' 2 6 = 0 →
    Sent.isCommand hd44780.dispCtrl ⟨hd44780.entryMode ||| m, false⟩ = false ∧
    Sent.isCommand hd44780.entryMode ⟨hd44780.entryMode ||| m, false⟩ = true ∧
    Sent.isCommand hd44780.funcSet ⟨hd44780.entryMode ||| m, false⟩ = false := by
  decide

/-- A function set built from the mask is one for the 4-bit interface (R84). -/
theorem funcSet_command : ∀ m : Byte, m.extractLsb' 4 4 = 0 →
    Sent.isCommand hd44780.dispCtrl ⟨hd44780.funcSet ||| m, false⟩ = false ∧
    Sent.isCommand hd44780.entryMode ⟨hd44780.funcSet ||| m, false⟩ = false ∧
    Sent.isCommand hd44780.funcSet ⟨hd44780.funcSet ||| m, false⟩ = true ∧
    Interface.afterByte .hd44780 ⟨hd44780.funcSet ||| m, false⟩ .fourHigh =
      .fourHigh := by
  decide

theorem setDdram_quiet : ∀ address : Byte,
    isModeCommand .hd44780 (hd44780.setDdram ||| address) = false := by
  decide

theorem setCgram_quiet : ∀ location : Byte,
    isModeCommand .hd44780 (hd44780.setCgram ||| cgramAddress location) = false := by
  decide

end modeCommands

/-- The byte of the display-control mask is latched as such and as nothing else. -/
theorem Reader.Latched.read_dispCtrl (hp : p.cmd = .hd44780) (h : r.Latched p.cmd dc em fs)
    {m : Byte} (hm : m.extractLsb' 3 5 = 0) (s : State) :
    (r.read p.cmd mixed s.pinEn (s.sendEvents (p.cmd.dispCtrl ||| m) false)).Latched p.cmd
      (some (p.cmd.dispCtrl ||| m)) em fs := by
  obtain ⟨hdc, hem, hfs⟩ := dispCtrl_command m hm
  rw [hp] at h ⊢
  have hread := h.read_send (mixed := mixed) ⟨_, false⟩ (afterByte_of_other hfs _) s
  rwa [latch_of_command hdc, latch_of_other hem, latch_of_other hfs] at hread

theorem Reader.Latched.read_entryMode (hp : p.cmd = .hd44780) (h : r.Latched p.cmd dc em fs)
    {m : Byte} (hm : m.extractLsb' 2 6 = 0) (s : State) :
    (r.read p.cmd mixed s.pinEn (s.sendEvents (p.cmd.entryMode ||| m) false)).Latched p.cmd
      dc (some (p.cmd.entryMode ||| m)) fs := by
  obtain ⟨hdc, hem, hfs⟩ := entryMode_command m hm
  rw [hp] at h ⊢
  have hread := h.read_send (mixed := mixed) ⟨_, false⟩ (afterByte_of_other hfs _) s
  rwa [latch_of_other hdc, latch_of_command hem, latch_of_other hfs] at hread

theorem Reader.Latched.read_funcSet (hp : p.cmd = .hd44780) (h : r.Latched p.cmd dc em fs)
    {m : Byte} (hm : m.extractLsb' 4 4 = 0) (s : State) :
    (r.read p.cmd mixed s.pinEn (s.sendEvents (p.cmd.funcSet ||| m) false)).Latched p.cmd
      dc em (some (p.cmd.funcSet ||| m)) := by
  obtain ⟨hdc, hem, hfs, hfour⟩ := funcSet_command m hm
  rw [hp] at h ⊢
  have hread := h.read_send (mixed := mixed) ⟨_, false⟩ hfour s
  rwa [latch_of_other hdc, latch_of_other hem, latch_of_command hfs] at hread

/-! ### INIT and the other operations -/

/-- The commands that end INIT leave the latches at the masks INIT writes (R107 to R111). -/
theorem Reader.read_setupEvents (hp : p.cmd = .hd44780) (hs : ConfigCoherent s)
    (h4 : r.iface = .fourHigh) (hr : r.raised = false) :
    (r.read p.cmd mixed s.pinEn (s.setupEvents p)).Latched p.cmd
      (some (p.cmd.dispCtrl ||| p.cmd.dcDisplay)) (some (p.cmd.entryMode ||| p.cmd.emLeft))
      (some (p.cmd.funcSet ||| s.fset)) := by
  have hstart : r.Latched p.cmd _ _ _ := ⟨h4, hr, rfl, rfl, rfl⟩
  have hclear : Sent.Quiet p.cmd ⟨p.cmd.clear, false⟩ := by rw [hp]; exact .inr rfl
  have hhome : Sent.Quiet p.cmd ⟨p.cmd.home, false⟩ := by rw [hp]; exact .inr rfl
  simp only [State.setupEvents, Reader.read_append, Reader.read_wait]
  exact ((((hstart.read_funcSet hp hs.fset_high s).read_dispCtrl hp (by rw [hp]; rfl) s).read_quiet
    hclear s).read_entryMode hp (by rw [hp]; rfl) s).read_quiet hhome s

/-- INIT establishes mask coherence, whatever any reader knew before (R33, R115). -/
theorem maskCoherent_init (hp : p.cmd = .hd44780) (s : State) (d c e : PinId) (lines font : Byte) :
    MaskCoherent p (Instr.outcome p s (.init d c e lines font)) := by
  refine maskCoherent_iff.2 fun mixed r => ?_
  have htrace : (Instr.outcome p s (.init d c e lines font)).trace =
    s.trace ++ (s.configure p d c e lines font).initEvents p := rfl
  rw [htrace, State.initEvents_eq, Reader.read_append, Reader.read_append, Reader.read_append]
  obtain ⟨h4, hr⟩ := Reader.read_handshakeEvents mixed hp (s.configure p d c e lines font)
    (Reader.read p.cmd mixed (enablePinFor p d e) (r.read p.cmd mixed (enablePinFor p d e) s.trace)
      [.pinMode d, .pinMode c, .pinMode (enablePinFor p d e)]) rfl
  exact Reader.read_setupEvents (s := s.configure p d c e lines font) hp
    (configCoherent_configure hp d c e lines font s) h4 hr

/-- The operations other than INIT by what a controller latches from them: bytes that are no mode
commands, or the whole byte of the one mask the operation has just written (R160). -/
theorem Instr.latch_cases (hp : p.cmd = .hd44780) (hi : i.isInit = false)
    (hcommand : ∀ byte, i = .command byte → isModeCommand p.cmd byte = false) (s : State) :
    (i.writes p s = s ∧ ∀ b ∈ i.sends p s, b.Quiet p.cmd) ∨
    (∃ f on, i.writes p s = s.updateDctrl p f on ∧
      ∀ u, i.events p u = u.sendEvents (p.cmd.dispCtrl ||| u.dctrl) false) ∨
    (∃ f on, i.writes p s = s.updateEmode p f on ∧
      ∀ u, i.events p u = u.sendEvents (p.cmd.entryMode ||| u.emode) false) := by
  cases i with
  | init d c e lines font => cases hi
  | display | noDisplay | cursor | noCursor | blink | noBlink =>
    exact .inr (.inl ⟨_, _, rfl, fun u =>
      by simp [Instr.events, Instr.sends, Instr.closingWait, waitEvents]⟩)
  | shiftLeft | shiftRight | shiftInc | shiftDec =>
    exact .inr (.inr ⟨_, _, rfl, fun u =>
      by simp [Instr.events, Instr.sends, Instr.closingWait, waitEvents]⟩)
  | clear | home | scrollLeft | scrollRight =>
    refine .inl ⟨rfl, ?_⟩
    simp only [Instr.sends, List.forall_mem_singleton, hp]
    exact .inr (by decide)
  | setCursor col row =>
    refine .inl ⟨rfl, ?_⟩
    simp only [Instr.sends, List.forall_mem_singleton, hp]
    exact .inr (setDdram_quiet _)
  | createChar location g0 g1 g2 g3 g4 g5 g6 g7 =>
    refine .inl ⟨rfl, fun b hb => ?_⟩
    obtain rfl | ⟨g, -, rfl⟩ | rfl : b = ⟨p.cmd.setCgram ||| cgramAddress location, false⟩ ∨
        (∃ g, g ∈ [g0, g1, g2, g3, g4, g5, g6, g7] ∧ ⟨g, true⟩ = b) ∨
        b = ⟨p.cmd.setDdram, false⟩ := by
      simpa only [Instr.sends, List.cons_append, List.mem_cons (a := b), List.mem_append,
        List.mem_map, List.not_mem_nil, or_false] using hb
    all_goals rw [hp]
    · exact .inr (setCgram_quiet location)
    · exact .inl rfl
    · exact .inr (by decide)
  | write byte =>
    refine .inl ⟨rfl, ?_⟩
    simp only [Instr.sends, List.forall_mem_singleton]
    exact .inl rfl
  | command byte =>
    refine .inl ⟨rfl, ?_⟩
    simp only [Instr.sends, List.forall_mem_singleton]
    exact .inr (hcommand byte rfl)

/-- Settles O48: the handshake synchronises every reader, the commands after it set all latches. -/
theorem initEstablishesMaskCoherence : Obligations.InitEstablishesMaskCoherence := by
  intro p s t d c e lines font hp ht
  rw [eq_outcome_of_ran ht (accepts_of_isInit rfl)]
  exact maskCoherent_init hp s d c e lines font

/-- Settles O49: a quiet byte moves no latch, and a mask operation sends the mask it has written. -/
theorem maskCoherenceKept : Obligations.MaskCoherenceKept := by
  intro p i s t h hph hmask hcommand ht
  have hp := h.table
  rw [eq_outcome_of_ran ht (by rw [hph]; rfl)]
  cases hi : i.isInit with
  | true =>
    obtain ⟨d, c, e, lines, font, rfl⟩ := Instr.eq_init hi
    exact maskCoherent_init hp s d c e lines font
  | false =>
    rw [maskCoherent_iff] at hmask ⊢
    intro mixed r
    have hq := hmask mixed r
    have htrace : (i.outcome p s).trace = (i.writes p s).trace ++ i.events p (i.writes p s) := rfl
    have hen : (i.outcome p s).pinEn = (i.writes p s).pinEn := rfl
    rw [htrace, hen, Reader.read_append]
    obtain ⟨hw, hquiet⟩ | ⟨f, on, hw, hev⟩ | ⟨f, on, hw, hev⟩ := Instr.latch_cases hp hi hcommand s
    · rw [hw, Instr.events_of_not_init hi, Reader.read_append, Reader.read_wait,
        Reader.LatchedMasks, Instr.outcome, hw]
      exact hq.read_quiets hquiet s
    · rw [hev, hw, Reader.LatchedMasks, Instr.outcome, hw]
      exact hq.read_dispCtrl hp (perform_dctrlOk hp (.updateDctrl f on) (h.dctrl hph)) s
    · rw [hev, hw, Reader.LatchedMasks, Instr.outcome, hw]
      exact hq.read_entryMode hp (perform_emodeOk hp (.updateEmode f on) (h.emode hph)) s

end Sys2Proof.Machine
end

section
/-! What a step does to the trace, the completions and the inputs (R65, R202): every meaning appends
to the first two and keeps the inputs, and a step takes at most the first input before it. -/

namespace Sys2Proof.Machine

open Sys2Proof.Claims

variable {p : Config} {s t : State} {i : Instr} {n : Nat}

/-! ### The ports in an operation -/

@[simp] theorem Instr.writes_trace (p : Config) (s : State) (i : Instr) :
    (i.writes p s).trace = s.trace := by
  cases i <;> rfl

@[simp] theorem Instr.writes_completions (p : Config) (s : State) (i : Instr) :
    (i.writes p s).completions = s.completions := by
  cases i <;> rfl

@[simp] theorem Instr.writes_inputs (p : Config) (s : State) (i : Instr) :
    (i.writes p s).inputs = s.inputs := by
  cases i <;> rfl

/-- At the ports `t` differs from `s` by some events and at most one completion; every input is still
to come. -/
structure Appends (s t : State) : Prop where
  trace : ∃ es, t.trace = s.trace ++ es
  completions : t.completions = s.completions ∨ ∃ c, t.completions = s.completions ++ [c]
  inputs : t.inputs = s.inputs

theorem Appends.of_ports (htr : t.trace = s.trace) (hcomp : t.completions = s.completions)
    (hin : t.inputs = s.inputs) : Appends s t :=
  ⟨⟨[], by simp [htr]⟩, .inl hcomp, hin⟩

theorem appends_outcome (p : Config) (s : State) (i : Instr) : Appends s (i.outcome p s) :=
  ⟨⟨i.events p (i.writes p s), by simp [Instr.outcome]⟩, .inr ⟨⟨i.ret, .performed⟩, by
    simp [Instr.outcome]⟩, by simp [Instr.outcome]⟩

theorem appends_refuse (s : State) (why : RefusedBecause) : Appends s (s.refuse why) :=
  ⟨⟨[], by simp⟩, .inr ⟨⟨0, .refused why⟩, rfl⟩, rfl⟩

theorem appends_applyReset (s : State) : Appends s s.applyReset :=
  .of_ports rfl rfl rfl

theorem appends_execWith (h : execWith p i s = .next t) : Appends s t := by
  obtain ⟨-, rfl⟩ | ⟨-, rfl⟩ := execWith_cases h
  · exact appends_outcome p s i
  · exact appends_refuse s _

theorem appends_beginRequest (w : ReqWord) (s : State) : Appends s (beginRequest w s) := by
  unfold beginRequest
  split
  · split
    · exact .of_ports rfl rfl rfl
    · exact appends_refuse s _
  · exact appends_refuse s _

theorem appends_tick (p : Config) (h : s.seq = .running i n) : Appends s (s.tick p) := by
  obtain ⟨m, -, ht⟩ | ⟨-, ht⟩ := tick_cases p h
  · obtain ⟨htr, hcomp, hin, -⟩ := perform_appends p m { s with seq := .running i (n + 1) }
    rw [ht]
    exact ⟨htr, hcomp, hin⟩
  · rw [ht]
    exact .of_ports rfl rfl rfl

/-! ### The ports in a step -/

/-- An idle step is a meaning that appends, at `s` itself or at `s` with its first input taken. -/
theorem stepIdle_appends (h : stepIdle (execWith p) s = .next t) :
    Appends s t ∨ ∃ a rest, s.inputs = a :: rest ∧ Appends { s with inputs := rest } t := by
  obtain ⟨-, rfl⟩ | ⟨w, rest, i, hin, -, hrun⟩ | ⟨w, rest, e, hin, -, rfl⟩ | ⟨w, rest, hin, rfl⟩ |
    ⟨rest, hin, rfl⟩ | ⟨rest, hin, rfl⟩ | ⟨w, rest, hin, rfl⟩ := stepIdle_cases h
  · exact .inl (.of_ports rfl rfl rfl)
  · exact .inr ⟨_, rest, hin, appends_execWith hrun⟩
  · exact .inr ⟨_, rest, hin, appends_refuse _ _⟩
  · exact .inr ⟨_, rest, hin, appends_beginRequest w _⟩
  · exact .inr ⟨_, rest, hin, .of_ports rfl rfl rfl⟩
  · exact .inr ⟨_, rest, hin, appends_applyReset _⟩
  · exact .inr ⟨_, rest, hin, appends_applyReset _⟩

/-- So is a step with an operation in flight. -/
theorem stepRunning_appends (p : Config) (h : s.seq = .running i n) :
    Appends s (stepRunning s p) ∨
    ∃ a rest, s.inputs = a :: rest ∧ Appends { s with inputs := rest } (stepRunning s p) := by
  obtain ⟨rest, hin | ⟨w, hin⟩, ht⟩ | ⟨rest, hin, ht⟩ | ht := stepRunning_cases s p <;> rw [ht]
  · exact .inr ⟨_, rest, hin, appends_applyReset _⟩
  · exact .inr ⟨_, rest, hin, appends_applyReset _⟩
  · exact .inr ⟨_, rest, hin, appends_tick p (s := { s with inputs := rest }) h⟩
  · exact .inl (appends_tick p h)

theorem stepWith_appends (h : stepWith p s = .next t) :
    Appends s t ∨ ∃ a rest, s.inputs = a :: rest ∧ Appends { s with inputs := rest } t := by
  cases hseq : s.seq with
  | idle =>
    rw [stepWith_idle hseq] at h
    simpa only [hseq] using stepIdle_appends h
  | running i n =>
    rw [stepWith_running hseq] at h
    cases h
    simpa only [hseq] using stepRunning_appends p hseq

/-- Settles O6: the meaning a step runs appends, and the step takes at most the first input. -/
theorem stepOnlyAppends : Obligations.StepOnlyAppends := by
  intro p s t ht
  obtain ⟨htr, hcomp, hin⟩ | ⟨a, rest, hs, htr, hcomp, hin⟩ :=
    stepWith_appends (stepWith_of_stepped ht)
  · exact ⟨htr, hcomp, .inl hin⟩
  · exact ⟨htr, hcomp, .inr ⟨a, by rw [hs, hin]⟩⟩

end Sys2Proof.Machine
end

section
/-! The address mapper (R61 to R63): the row-offset table, and the seven bits of a DDRAM address
that reach the controller. -/

namespace Sys2Proof.Machine

open Sys2Proof.Claims

variable {p : Config} {s : State} {i : Instr}

/-- An operation that writes no register leaves nothing behind but its events and its completion. -/
theorem Instr.outcome_eq_finished (h : i.writes p s = s) :
    i.outcome p s = finished s (i.events p s) i.ret := by
  rw [Instr.outcome, h]
  rfl

theorem Instr.events_setCursor (p : Config) (s : State) (col row : Byte) :
    Instr.events p s (.setCursor col row) =
      s.sendEvents (p.cmd.setDdram ||| ddramAddress s.numLines col row) false := by
  rw [Instr.events_of_not_init rfl]
  simp [Instr.sends, Instr.closingWait, waitEvents]

/-- SETCURSOR in `READY` sends the address it maps to, and nothing else (R142). -/
theorem execWith_setCursor (p : Config) (h : s.phase = .ready) (col row : Byte) :
    execWith p (.setCursor col row) s = .next (finished s
      (s.sendEvents (p.cmd.setDdram ||| ddramAddress s.numLines col row) false) 0) := by
  rw [execWith_accepted (by rw [h]; rfl), Instr.outcome_eq_finished rfl, Instr.events_setCursor]
  rfl

/-- Bit 7 of an address is lost in the or with the command bit (R63). -/
theorem setDdram_or_low (address : Byte) :
    0x80#8 ||| address = 0x80#8 ||| (address &&& 0x7F#8) := by
  ext k hk
  interval_cases k <;> simp

/-- Adding 128 moves no bit but bit 7. -/
theorem add_128_low (address : Byte) : (address + 0x80#8) &&& 0x7F#8 = address &&& 0x7F#8 := by
  have hmask : ∀ x : Byte, (x &&& 0x7F#8).toNat = x.toNat % 128 := fun x => by
    rw [BitVec.toNat_and]
    exact Nat.and_two_pow_sub_one_eq_mod x.toNat 7
  refine BitVec.eq_of_toNat_eq ?_
  rw [hmask, hmask, BitVec.toNat_add]
  simp only [BitVec.toNat_ofNat]
  omega

theorem ddramAddress_add_128 (numLines : BitVec 2) (col row : Byte) :
    ddramAddress numLines (col + 0x80) row = ddramAddress numLines col row + 0x80#8 :=
  add_right_comm ..

/-- With the default constants SETCURSOR sends the command bit and seven bits of the sum. -/
theorem execWith_setCursor_hd44780 (hp : p.cmd = .hd44780) (h : s.phase = .ready) (col row : Byte) :
    execWith p (.setCursor col row) s = .next (finished s (s.sendEvents (0x80 |||
      ((col + rowOffset (clampRow s.numLines row)) &&& 0x7F)) false) 0) := by
  rw [execWith_setCursor p h, hp]
  exact congrArg (fun b => Host.Outcome.next (finished s (s.sendEvents b false) 0))
    (setDdram_or_low _)

theorem execWith_setCursor_add_128 (hp : p.cmd = .hd44780) (h : s.phase = .ready) (col row : Byte) :
    execWith p (.setCursor (col + 0x80) row) s = execWith p (.setCursor col row) s := by
  have hlow : 0x80#8 ||| ddramAddress s.numLines (col + 0x80) row =
      0x80#8 ||| ddramAddress s.numLines col row := by
    rw [setDdram_or_low, ddramAddress_add_128, add_128_low, ← setDdram_or_low]
  rw [execWith_setCursor p h, execWith_setCursor p h, hp]
  exact congrArg (fun b => Host.Outcome.next (finished s (s.sendEvents b false) 0)) hlow

/-- Settles O25: the two facts of the default constants, for `exec` as the block `Config.block`. -/
theorem columnWrapsIntoSevenBits : Obligations.ColumnWrapsIntoSevenBits := by
  intro s col row h
  simp only [exec_eq_execWith_block]
  exact ⟨execWith_setCursor_hd44780 rfl h col row, execWith_setCursor_add_128 rfl h col row,
    fun p hp => ⟨execWith_setCursor_hd44780 hp h col row, execWith_setCursor_add_128 hp h col row⟩⟩

/-- Settles O16, row by row of the table. -/
theorem rowOffsetTable : Obligations.RowOffsetTable :=
  ⟨rfl, rfl, rfl, rfl⟩

end Sys2Proof.Machine
end

section
/-! The events of an operation as a list of whole frames and waits (R125), every frame legal (R78),
and what the shift register and a reader of the strobes see of them (R58, R127, R209). -/

namespace Sys2Proof.Machine

open Sys2Proof.Claims

variable {s : State}

/-! ### Legal frames (R76 to R78) -/

/-- A frame is legal however its nibble was cut out of the byte. -/
theorem legalFrame_of_nibble {lines : Byte} {nibble : BitVec 4} (isData : Bool)
    (h : lines &&& Config.frameDataMask = nibble.setWidth 8 <<< 3) :
    LegalFrame (rsBit isData ||| Config.frameEn ||| (lines &&& Config.frameDataMask)) := by
  refine ⟨nibble, isData, ?_⟩
  rw [h, BitVec.or_assoc, BitVec.or_comm]
  rfl

theorem legalFrame_upperFrame (value : Byte) (isData : Bool) :
    LegalFrame (upperFrame value isData) := by
  refine legalFrame_of_nibble (nibble := value.extractLsb' 4 4) isData ?_
  ext k hk
  interval_cases k <;> simp [Config.frameDataMask]

theorem legalFrame_lowerFrame (value : Byte) (isData : Bool) :
    LegalFrame (lowerFrame value isData) := by
  refine legalFrame_of_nibble (nibble := value.extractLsb' 0 4) isData ?_
  ext k hk
  interval_cases k <;> simp [Config.frameDataMask]

theorem nibbleFrame_eq (value : Byte) : nibbleFrame value = upperFrame value false := by
  simp [nibbleFrame, upperFrame, rsBit]

/-! ### Frames and waits -/

/-- The events of a list of pieces, each a whole frame or a wait. -/
def State.piecesEvents (s : State) (gs : List (Byte ⊕ Nat)) : List Event :=
  gs.flatMap (Sum.elim s.frameEvents fun us => [.delay us])

/-- The frames among the pieces, in order. -/
def pieceFrames (gs : List (Byte ⊕ Nat)) : List Byte := gs.filterMap Sum.getLeft?

/-- The events are legal frames on the pins of `s`, separated only by waits. -/
def State.FramesAndWaits (s : State) (es : List Event) : Prop :=
  ∃ gs, es = s.piecesEvents gs ∧ ∀ f ∈ pieceFrames gs, LegalFrame f

theorem State.FramesAndWaits.append {es fs : List Event} (he : s.FramesAndWaits es)
    (hf : s.FramesAndWaits fs) : s.FramesAndWaits (es ++ fs) := by
  obtain ⟨gs, rfl, hgs⟩ := he
  obtain ⟨hs, rfl, hhs⟩ := hf
  refine ⟨gs ++ hs, by simp [State.piecesEvents], fun f hmem => ?_⟩
  rw [pieceFrames, List.filterMap_append, List.mem_append] at hmem
  exact hmem.elim (hgs f) (hhs f)

theorem State.framesAndWaits_frame (s : State) {f : Byte} (hf : LegalFrame f) :
    s.FramesAndWaits (s.frameEvents f) :=
  ⟨[.inl f], by simp [State.piecesEvents], by simpa [pieceFrames] using hf⟩

theorem State.framesAndWaits_wait (s : State) (us : Nat) : s.FramesAndWaits (waitEvents us) := by
  unfold waitEvents
  split
  · exact ⟨[], rfl, by simp [pieceFrames]⟩
  · exact ⟨[.inr us], rfl, by simp [pieceFrames]⟩

theorem State.framesAndWaits_send (s : State) (value : Byte) (isData : Bool) :
    s.FramesAndWaits (s.sendEvents value isData) :=
  ((s.framesAndWaits_frame (legalFrame_upperFrame value isData)).append
    (s.framesAndWaits_frame (legalFrame_lowerFrame value isData))).append
    (s.framesAndWaits_wait Config.settleUs)

theorem State.framesAndWaits_nibble (p : Config) (s : State) (value : Byte) :
    s.FramesAndWaits (s.nibbleEvents p value) := by
  refine .append (s.framesAndWaits_frame ?_) (s.framesAndWaits_wait _)
  rw [nibbleFrame_eq]
  exact legalFrame_upperFrame value false

theorem State.framesAndWaits_sends (s : State) (bs : List Sent) :
    s.FramesAndWaits (bs.flatMap fun b => s.sendEvents b.value b.isData) := by
  induction bs with
  | nil => exact ⟨[], rfl, by simp [pieceFrames]⟩
  | cons b bs ih => exact (s.framesAndWaits_send b.value b.isData).append ih

theorem State.framesAndWaits_handshake (p : Config) (s : State) :
    s.FramesAndWaits (s.handshakeEvents p) := by
  have hwait := s.framesAndWaits_wait
  have hset8 := s.framesAndWaits_nibble p (p.cmd.funcSet ||| p.cmd.fs8Bit)
  have hset4 := s.framesAndWaits_nibble p p.cmd.funcSet
  exact (((((((hwait _).append hset8).append (hwait _)).append hset8).append (hwait _)).append
    hset8).append (hwait _)).append hset4

theorem State.framesAndWaits_setup (p : Config) (s : State) :
    s.FramesAndWaits (s.setupEvents p) := by
  have hwait := s.framesAndWaits_wait Config.longUs
  have hsend := fun value => s.framesAndWaits_send value false
  exact ((((((hsend _).append (hsend _)).append (hsend _)).append hwait).append (hsend _)).append
    (hsend _)).append hwait

/-- The three `PinMode` events, of INIT only (R102). -/
def State.pinModesOf (s : State) (i : Instr) : List Event :=
  if i.isInit then [.pinMode s.pinData, .pinMode s.pinClk, .pinMode s.pinEn] else []

/-- Every operation emits frames and waits only, behind INIT's three pin modes (R125). -/
theorem Instr.events_eq_pinModesOf_append (p : Config) (s : State) (i : Instr) :
    ∃ es, s.FramesAndWaits es ∧ i.events p s = s.pinModesOf i ++ es := by
  cases hi : i.isInit with
  | true =>
    obtain ⟨d, c, e, lines, font, rfl⟩ := Instr.eq_init hi
    exact ⟨_, (s.framesAndWaits_handshake p).append (s.framesAndWaits_setup p),
      s.initEvents_eq.trans (List.append_assoc ..)⟩
  | false =>
    refine ⟨_, (s.framesAndWaits_sends (i.sends p s)).append
      (s.framesAndWaits_wait i.closingWait), ?_⟩
    rw [Instr.events_of_not_init hi, State.pinModesOf, hi]
    rfl

/-! ### What is seen of them -/

section pieces
variable (t : CommandTable) (mixed : Bool) (s : State)

theorem State.piecesEvents_frame (f : Byte) (gs : List (Byte ⊕ Nat)) :
    s.piecesEvents (.inl f :: gs) = s.frameEvents f ++ s.piecesEvents gs := rfl

theorem pieceFrames_frame (f : Byte) (gs : List (Byte ⊕ Nat)) :
    pieceFrames (.inl f :: gs) = f :: pieceFrames gs := rfl

/-- A reader with the enable line at rest reads one strobe of every frame, in order (R58). -/
theorem Reader.read_piecesEvents_strobes {r : Reader} (hr : r.raised = false)
    (gs : List (Byte ⊕ Nat)) :
    (r.read t mixed s.pinEn (s.piecesEvents gs)).strobes = r.strobes ++ pieceFrames gs := by
  induction gs generalizing r with
  | nil => exact (List.append_nil _).symm
  | cons g gs ih =>
    cases g with
    | inl f =>
      rw [State.piecesEvents_frame, Reader.read_append, Reader.read_frame _ _ _ _ _ hr, ih rfl,
        pieceFrames_frame]
      simp [Reader.strobe_strobes]
    | inr us => exact ih hr

theorem shiftedBytes_frameEvents (f : Byte) :
    shiftedBytes (s.frameEvents f) = if s.twoWire then [0x00, f] else [f] := by
  unfold State.frameEvents
  split <;> rfl

/-- Two-wire mode shifts out a zero before every frame, three-wire mode the frames alone (R209). -/
theorem shiftedBytes_piecesEvents (gs : List (Byte ⊕ Nat)) :
    shiftedBytes (s.piecesEvents gs) =
      if s.twoWire then (pieceFrames gs).flatMap fun f => [0x00, f] else pieceFrames gs := by
  induction gs with
  | nil => simp [State.piecesEvents, pieceFrames, shiftedBytes]
  | cons g gs ih =>
    cases g with
    | inl f =>
      rw [State.piecesEvents_frame, shiftedBytes_append, shiftedBytes_frameEvents, ih,
        pieceFrames_frame]
      split <;> rfl
    | inr us => exact ih

/-- INIT's pin modes are no strobe and leave the enable line at rest. -/
theorem Reader.read_pinModesOf (en : PinId) {r : Reader} (hr : r.raised = false) (i : Instr) :
    r.read t mixed en (s.pinModesOf i) = r := by
  obtain ⟨sr, raised, strobes, iface, taken⟩ := r
  cases hr
  unfold State.pinModesOf
  split <;> rfl

theorem shiftedBytes_pinModesOf (i : Instr) : shiftedBytes (s.pinModesOf i) = [] := by
  unfold State.pinModesOf
  split <;> rfl

end pieces

/-- Settles O42: the pieces of the operation's events, read and shifted out frame by frame. -/
theorem everyFrameStrobedOnce : Obligations.EveryFrameStrobedOnce := by
  intro p i s t es mixed r hacc ht hes hr
  obtain rfl := eq_outcome_of_ran ht hacc
  have hev : es = i.events p (i.writes p s) := by
    simpa [Instr.outcome] using hes.symm
  obtain ⟨_, ⟨gs, rfl, hlegal⟩, hpieces⟩ := Instr.events_eq_pinModesOf_append p (i.writes p s) i
  have hen : (i.outcome p s).pinEn = (i.writes p s).pinEn := rfl
  have htw : (i.outcome p s).twoWire = (i.writes p s).twoWire := rfl
  rw [hev, hpieces, hen, htw]
  refine ⟨pieceFrames gs, ?strobes, ?bytes, hlegal⟩
  case strobes =>
    rw [Reader.read_append, Reader.read_pinModesOf _ _ _ _ hr,
      Reader.read_piecesEvents_strobes _ _ _ hr]
  case bytes =>
    rw [shiftedBytes_append, shiftedBytes_pinModesOf, shiftedBytes_piecesEvents, List.nil_append]

end Sys2Proof.Machine
end

section
/-! The encodings (R70 to R73): encoding an operation and decoding a word undo each other on the
bits the operation uses, and the reserved op codes name no operation. -/

namespace Sys2Proof.Machine

open Sys2Proof.Claims

variable {w : ReqWord} {i : Instr}

/-! ### Decoding and encoding -/

/-- No operand bit is dropped or moved: for each operation, every field of its packed word is the
byte it was packed from, and the op code leads back to its row (R70 to R72). -/
theorem decode_encode (i : Instr) : decode (encode i) = .ok i := by
  cases i <;> simp [decode, encode, Instr.opcode]

/-- A used field is kept whole by its mask, in the literal `simp` writes `0xFF` as. -/
theorem and_255 (x : Byte) : x &&& 255#8 = x := BitVec.and_allOnes

/-- Masking a word with a packed one masks its fields. -/
theorem and_packReq (w : ReqWord) (op a b g1 g2 g3 g4 g5 g6 g7 : Byte) :
    w &&& packReq op a b g1 g2 g3 g4 g5 g6 g7 =
      packReq (reqOp w &&& op) (reqA w &&& a) (reqB w &&& b) (reqG1 w &&& g1) (reqG2 w &&& g2)
        (reqG3 w &&& g3) (reqG4 w &&& g4) (reqG5 w &&& g5) (reqG6 w &&& g6) (reqG7 w &&& g7) := by
  rw [← packReq_and, packReq_fields]

/-- The op code is a field every operation uses. -/
@[simp] theorem reqOp_and_usedBits (w : ReqWord) (i : Instr) :
    reqOp (w &&& i.usedBits) = reqOp w := by
  cases i <;> exact (congrArg reqOp (and_packReq ..)).trans ((reqOp_packReq ..).trans (and_255 _))

/-- The fields an operation does not use have no effect on the decoding (R71). -/
theorem decode_and_usedBits (h : reqOp w = i.opcode) : decode (w &&& i.usedBits) = decode w := by
  have hop : reqOp (w &&& i.usedBits) = i.opcode := by rw [reqOp_and_usedBits, h]
  cases i with
  | init | setCursor | createChar | write | command =>
    simp [decode, h, Instr.opcode, Instr.usedBits, and_packReq, and_255]
  | _ => simp [decode, h, hop, Instr.opcode]

/-- Encoding what a word decodes to gives the word back with its unused fields zero. -/
theorem encode_of_decode (h : decode w = .ok i) : encode i = w &&& i.usedBits := by
  have hop := reqOp_of_decode h
  unfold decode at h
  split at h
  case h_20 => cases h
  all_goals
    cases h
    simp [encode, hop, Instr.opcode, Instr.usedBits, and_packReq, and_255]

/-! ### Reserved op codes -/

theorem decode_reserved (h : 0x13 ≤ (reqOp w).toNat) :
    decode w = .error (.reservedOp (reqOp w)) := by
  unfold decode
  split
  case h_20 => rfl
  all_goals omega

theorem exists_decode_iff : (∃ i, decode w = .ok i) ↔ (reqOp w).toNat < 0x13 := by
  constructor
  · rintro ⟨i, hi⟩
    by_contra hlt
    rw [decode_reserved (by omega)] at hi
    cases hi
  · intro hlt
    unfold decode
    interval_cases (reqOp w).toNat <;> exact ⟨_, rfl⟩

theorem decodeBytes_wrongLength {bs : List Byte} (h : bs.length ≠ 10) :
    decodeBytes bs = .error (.wrongLength bs.length) := by
  have hword : wordOfBytes bs = .error (.wrongLength bs.length) := by
    unfold wordOfBytes
    split
    · exact absurd rfl h
    · rfl
  rw [decodeBytes, hword]

theorem beginRequest_error {s : State} {e : DecodeError} (h : decode w = .error e) :
    beginRequest w s = s.refuse .reservedOp := by
  unfold beginRequest; rw [h]

theorem decode_of_decodeTableWord {nbits n : Nat} (h : decodeTableWord nbits n = some i) :
    decode (tableWord nbits n) = .ok i := by
  unfold decodeTableWord at h
  split at h <;> cases h
  assumption

/-! ### A request at an idle port -/

section request
variable {s : State} {rest : List HostInput}

/-- A request that names an operation is performed on the state without the request (R70). -/
theorem stepWith_request (p : Config) (hseq : s.seq = .idle) (hin : s.inputs = .request w :: rest)
    (hdec : decode w = .ok i) : stepWith p s = execWith p i { s with inputs := rest } := by
  rw [stepWith_idle hseq, stepIdle_request hin, serve_ok hdec]

theorem step_request (hseq : s.seq = .idle) (hin : s.inputs = .request w :: rest)
    (hdec : decode w = .ok i) : step s = exec i { s with inputs := rest } := by
  rw [step_idle hseq, stepIdle_request hin, serve_ok hdec]

theorem stepsTo_accepted (hseq : s.seq = .idle) (hin : s.inputs = .request w :: rest)
    (hdec : decode w = .ok i) (hacc : accepts s.phase i = true) :
    StepsTo s fun p => i.outcome p { s with inputs := rest } :=
  stepsTo_of_stepWith fun p => (stepWith_request p hseq hin hdec).trans (execWith_accepted hacc)

theorem stepsTo_uninitialized (hseq : s.seq = .idle) (hin : s.inputs = .request w :: rest)
    (hdec : decode w = .ok i) (hacc : accepts s.phase i = false) :
    StepsTo s fun _ => turnedAway { s with inputs := rest } .uninitialized :=
  stepsTo_of_stepWith fun p => (stepWith_request p hseq hin hdec).trans (execWith_refused hacc)

/-- A reserved op code is refused, taken whole or step by step (R73). -/
theorem stepsTo_reserved (hseq : s.seq = .idle)
    (hin : s.inputs = .request w :: rest ∨ s.inputs = .begin w :: rest)
    (hop : 0x13 ≤ (reqOp w).toNat) :
    StepsTo s fun _ => turnedAway { s with inputs := rest } .reservedOp := by
  refine stepsTo_of_stepWith fun p => ?_
  have hdec := decode_reserved hop
  rw [stepWith_idle hseq]
  obtain hin | hin := hin
  · rw [stepIdle_request hin, serve_error hdec]; rfl
  · rw [stepIdle_begin hin, beginRequest_error hdec]; rfl

end request

/-- WRITE is the one operation that returns a count (R74). -/
theorem Instr.ret_eq (i : Instr) : i.ret = if i.opcode = 0x11 then 1 else 0 := by
  cases i <;> rfl

/-- Only INIT is accepted before initialization, and INIT is not WRITE. -/
theorem ready_of_accepts_write {s : State} (hacc : accepts s.phase i = true)
    (hop : i.opcode = 0x11) : s.phase = .ready := by
  refine ready_of_accepts hacc ?_
  cases i with
  | init => cases hop
  | _ => rfl

/-! ### The obligations of the encodings -/

/-- Settles O12: the round trip, operation by operation; every operation is well formed. -/
theorem decodeOfEncodeIsIdentity : Obligations.DecodeOfEncodeIsIdentity :=
  fun i _ => decode_encode i

/-- Settles O13: the used bits of a word fix its decoding, and the encoder keeps them. -/
theorem unusedFieldsIgnored : Obligations.UnusedFieldsIgnored := by
  intro w i hdec
  have hop := reqOp_of_decode hdec
  constructor
  · rw [encode_of_decode hdec, BitVec.and_assoc, BitVec.and_self]
  · intro w' hw'
    have hop' : reqOp w' = i.opcode := by
      rw [← reqOp_and_usedBits w' i, hw', reqOp_and_usedBits, hop]
    rw [← decode_and_usedBits hop', hw', decode_and_usedBits hop, hdec]

/-- Settles O53: the encoded word decodes to its operation, whose unused fields it has zero. -/
theorem encoderZeroesUnusedFields : Obligations.EncoderZeroesUnusedFields :=
  fun i => (encode_of_decode (decode_encode i)).symm

/-- Settles O11, word by word. -/
theorem wordsDecodeAsSpecified : Obligations.WordsDecodeAsSpecified :=
  ⟨by decide, by decide, by decide, by decide, by decide, by decide, by decide⟩

/-- Settles O8: the decoder's last row, the one length, and the refusal at an idle port. -/
theorem reservedOpCodesRefused : Obligations.ReservedOpCodesRefused :=
  ⟨fun _ => exists_decode_iff, fun _ => decode_reserved, fun _ => decodeBytes_wrongLength,
    fun _ _ _ hop hseq hin => stepsTo_reserved hseq hin hop⟩

/-- Settles O3: a placed word stands first at the port. -/
theorem stepRunsDecodedRequest : Obligations.StepRunsDecodedRequest := by
  constructor
  · exact fun s w rest i hseq hin hdec =>
      ⟨step_request hseq hin hdec, fun p => stepWith_request p hseq hin hdec⟩
  · intro s nbits n i htable
    have hdec := decode_of_decodeTableWord htable
    exact ⟨step_request rfl rfl hdec, fun p => stepWith_request p rfl rfl hdec⟩

/-- Settles O7: a request is performed, refused before INIT, or refused for its op code. -/
theorem oneCompletionPerRequest : Obligations.OneCompletionPerRequest := by
  intro s w rest hseq hin
  by_cases hop : (reqOp w).toNat < 0x13
  · obtain ⟨i, hdec⟩ := exists_decode_iff.2 hop
    rw [reqOp_of_decode hdec]
    cases hacc : accepts s.phase i with
    | true =>
      refine ⟨_, ⟨i.ret, .performed⟩, stepsTo_accepted hseq hin hdec hacc,
        fun p => by simp [Instr.outcome], ?_⟩
      have hready : (i.opcode = 0x11 ∧ s.phase = .ready) ↔ i.opcode = 0x11 :=
        and_iff_left_of_imp (ready_of_accepts_write hacc)
      simp only [Instr.ret_eq, hready]
    | false =>
      refine ⟨_, ⟨0, .refused .uninitialized⟩, stepsTo_uninitialized hseq hin hdec hacc,
        fun p => ⟨rfl, hseq, rfl⟩, ?_⟩
      simp [(accepts_eq_false_iff.1 hacc).1]
  · refine ⟨_, ⟨0, .refused .reservedOp⟩, stepsTo_reserved hseq (.inl hin) (by omega),
      fun p => ⟨rfl, hseq, rfl⟩, ?_⟩
    have hwrite : reqOp w ≠ 17#8 := fun h => hop (by rw [h]; decide)
    simp [hwrite]

end Sys2Proof.Machine
end

section
/-! The frames of a byte bit by bit (R75 to R77), and the byte a reader takes from a send (R79). -/

namespace Sys2Proof.Machine

/-! ### The bits beside the nibble, for whatever the data lines carry -/

theorem frameGate_of_lines (lines : Byte) (isData : Bool) :
    frameGate (rsBit isData ||| Config.frameEn ||| (lines &&& Config.frameDataMask)) = true := by
  cases isData <;> simp [frameGate, rsBit, Config.frameRs, Config.frameEn, Config.frameDataMask]

theorem lowBits_of_lines (lines : Byte) (isData : Bool) :
    (rsBit isData ||| Config.frameEn ||| (lines &&& Config.frameDataMask)).extractLsb' 0 2 = 0 := by
  ext k hk
  interval_cases k <;> cases isData <;>
    simp [rsBit, Config.frameRs, Config.frameEn, Config.frameDataMask]

/-! ### The obligations of the frames -/

/-- Settles O14: nibble, gate, register-select and low bits of both frames. -/
theorem frameEncoderBits : Obligations.FrameEncoderBits := fun value isData =>
  ⟨frameNibble_upperFrame value isData, frameNibble_lowerFrame value isData,
    frameGate_of_lines _ isData, frameGate_of_lines _ isData,
    frameIsData_upperFrame value isData, frameIsData_lowerFrame value isData,
    lowBits_of_lines _ isData, lowBits_of_lines _ isData⟩

/-- Settles O15: the nibble-only frame is the upper frame of a command (R77), so bit 2 is 0. -/
theorem nibbleFrameBits : Obligations.NibbleFrameBits := by
  intro value
  rw [nibbleFrame_eq]
  have hlow : (upperFrame value false).extractLsb' 0 3 = 0 := by
    ext k hk
    interval_cases k <;> simp [upperFrame, rsBit, Config.frameEn, Config.frameDataMask]
  exact ⟨frameNibble_upperFrame value false, frameGate_of_lines _ false, hlow⟩

/-- Settles O19: the trace grows by the events of the send, which are two strobes to the reader. -/
theorem sendReconstructsByte : Obligations.SendReconstructsByte := by
  intro s value isData t mixed r h4 hr
  have htrace : (s.send value isData).trace = s.trace ++ s.sendEvents value isData := by
    rw [State.send_eq, State.emits_trace]
  rw [htrace, Reader.read_append, Reader.read_sendEvents t mixed s _ h4 hr]
  refine ⟨upperFrame value isData, lowerFrame value isData, rfl, ?_,
    frameIsData_upperFrame value isData, frameIsData_lowerFrame value isData, rfl⟩
  exact (congrArg₂ (· ++ ·) (frameNibble_upperFrame value isData)
    (frameNibble_lowerFrame value isData)).trans (extractLsb'_append_nibbles value)

end Sys2Proof.Machine
end

section
/-! The initialization sequencer (`40_init_sequencer.md`): INIT as a whole (R100, R116), and the number
of events of its states and of every operation (R113, V70). -/

namespace Sys2Proof.Machine

open Sys2Proof.Claims

variable {p : Config} {s : State}

/-! ### INIT as a whole -/

theorem decode_of_reqOp_zero {w : ReqWord} (h : reqOp w = 0x00) :
    decode w = .ok (.init (reqG1 w) (reqG2 w) (reqG3 w) (reqA w) (reqB w)) := by
  simp [decode, h]

/-- The configuration INIT writes is that of R37, R84, R101 and R103. -/
theorem configure_eq_configured (p : Config) (d c e : PinId) (lines font : Byte) (s : State) :
    s.configure p d c e lines font = configured p d c e lines font s := by
  simp [State.configure, configured, enablePinFor, twoWireFlag, lineCount, fontFlag, funcSetMask,
    beq_eq_decide, bne]

/-- The closed form of INIT in the registers and events of R100. -/
theorem Instr.outcome_init (p : Config) (d c e : PinId) (lines font : Byte) (s : State) :
    Instr.outcome p s (.init d c e lines font) = finished
      { configured p d c e lines font s with
        dctrl := p.cmd.dcDisplay, emode := p.cmd.emLeft, phase := .ready }
      ((configured p d c e lines font s).initEvents p) 0 := by
  rw [← configure_eq_configured]
  rfl

/-- Settles O34: the word of op code 0, and the closed form of INIT, accepted in either phase. -/
theorem initRunsWholeSequence : Obligations.InitRunsWholeSequence := by
  refine ⟨fun w hw => decode_of_reqOp_zero hw, fun s d c e lines font => ?_⟩
  refine performs_of_execWith fun p => ?_
  rw [execWith_accepted (accepts_of_isInit rfl), Instr.outcome_init]

/-- INIT's events are built from registers it has written itself (R112). -/
theorem initEvents_configured (p : Config) (d c e : PinId) (lines font : Byte) (s s' : State) :
    (configured p d c e lines font s).initEvents p =
      (configured p d c e lines font s').initEvents p := rfl

/-- Settles O36: the closed form of INIT writes every register and emits the events of its own
configuration. -/
theorem initForgetsOldRegisters : Obligations.InitForgetsOldRegisters := by
  intro p s s' t t' d c e lines font hres ht ht'
  obtain rfl := eq_outcome_of_ran ht (accepts_of_isInit rfl)
  obtain rfl := eq_outcome_of_ran ht' (accepts_of_isInit rfl)
  simp only [Instr.outcome_init]
  refine ⟨⟨rfl, rfl, rfl, rfl, rfl, rfl, rfl, rfl, rfl, rfl, hres⟩, _, rfl, ?_⟩
  rw [initEvents_configured p d c e lines font s s']
  rfl

/-! ### The number of events of the procedures -/

/-- A wait that requests time is one event. -/
theorem length_waitEvents {us : Nat} (h : us ≠ 0) : (waitEvents us).length = 1 := by
  simp [waitEvents, h]

/-- The events of a frame (R120): two-wire mode adds the clear. -/
theorem State.length_frameEvents (s : State) (f : Byte) :
    (s.frameEvents f).length = if s.twoWire then 6 else 5 := by
  unfold State.frameEvents
  split <;> rfl

/-- The events of a full send (R121): two frames and the settle. -/
theorem State.length_sendEvents (s : State) (value : Byte) (isData : Bool) :
    (s.sendEvents value isData).length = if s.twoWire then 13 else 11 := by
  simp only [State.sendEvents, List.length_append, State.length_frameEvents]
  split <;> rfl

/-- The events of a nibble-only send (R122): one frame and the nibble settle, when there is one. -/
theorem State.length_nibbleEvents (hn : p.nibbleSettleUs ≠ 0) (s : State) (value : Byte) :
    (s.nibbleEvents p value).length = if s.twoWire then 7 else 6 := by
  simp only [State.nibbleEvents, List.length_append, State.length_frameEvents, length_waitEvents hn]
  split <;> rfl

/-- The events of a list of sends (R121). -/
theorem State.length_sends (s : State) (bs : List Sent) :
    (bs.flatMap fun b => s.sendEvents b.value b.isData).length =
      bs.length * if s.twoWire then 13 else 11 := by
  simp [List.length_flatMap, State.length_sendEvents]

/-- The events of the handshake (R104 to R106): four nibble-only sends and three waits, since
`T_FS3_US` is no event (R105). -/
theorem State.length_handshakeEvents (hn : p.nibbleSettleUs ≠ 0) (s : State) :
    (s.handshakeEvents p).length = if s.twoWire then 31 else 27 := by
  simp only [State.handshakeEvents, List.length_append, State.length_nibbleEvents hn]
  split <;> rfl

/-- The events of the commands that end INIT (R107 to R111): five sends and two long waits. -/
theorem State.length_setupEvents (s : State) :
    (s.setupEvents p).length = if s.twoWire then 67 else 57 := by
  simp only [State.setupEvents, List.length_append, State.length_sendEvents]
  split <;> rfl

/-! ### The number of events of the states and the operations -/

/-- Settles O38, by the procedure each state of the FSM performs: a wait, a nibble-only send or a full
send; `I0` emits its three pin modes whatever mode it selects. -/
theorem initStateEventCounts : Obligations.InitStateEventCounts := by
  intro p st d c e lines font s hn
  change (performAll p (InitState.steps d c e lines font st) s).trace.length = _
  cases st with
  | config => simp [InitState.steps, Micro.perform, initStateCount]
  | powerWait | wait1 | wait2 | clearWait | homeWait =>
    simp only [InitState.steps, performAll_cons, performAll_nil, Micro.perform, State.wait_eq,
      State.emits_trace, List.length_append]
    split <;> rfl
  | fs8First | fs8Second | fs8Third | fs4 =>
    simp [InitState.steps, performAll_nibble, State.sendNibble_eq, State.length_nibbleEvents hn,
      Micro.perform, State.wait, Config.fs3Us, initStateCount]
  | fsFinal | dispOn | clear | entry | home =>
    simp [InitState.steps, performAll_send, State.sendSource_eq, State.length_sendEvents,
      Micro.perform, initStateCount]

/-- The number of events of an accepted operation whose registers are written (V70). -/
theorem Instr.length_events (hn : p.nibbleSettleUs ≠ 0) (s : State) (i : Instr) :
    (i.events p s).length = if s.twoWire then (eventCount i).2 else (eventCount i).1 := by
  cases hi : i.isInit with
  | true =>
    obtain ⟨d, c, e, lines, font, rfl⟩ := Instr.eq_init hi
    change (s.initEvents p).length = _
    simp only [State.initEvents_eq, List.length_append, State.length_handshakeEvents hn,
      State.length_setupEvents]
    split <;> rfl
  | false =>
    rw [Instr.events_of_not_init hi, List.length_append, State.length_sends]
    cases i with
    | init d c e lines font => cases hi
    | _ => split <;> rfl

/-- Settles O44: the trace grows by the events of the operation, counted in the mode it has written. -/
theorem eventTotals : Obligations.EventTotals := by
  intro p i s t es hn hacc ht hes
  obtain rfl := eq_outcome_of_ran ht hacc
  have hev : es = i.events p (i.writes p s) := by
    simpa [Instr.outcome] using hes.symm
  rw [hev, Instr.length_events hn]
  rfl

end Sys2Proof.Machine
end

section
/-! The framing and strobe engine (`41_framing_strobe.md`): `FrameTx`, the two bare sends WRITE and
COMMAND, and the only path to the pins (R120, R123 to R125). -/

namespace Sys2Proof.Machine

open Sys2Proof.Claims

variable {s : State} {i : Instr}

/-! ### Operations in closed form -/

/-- An operation that writes no register, in `READY`: its events and its completion only. -/
theorem performs_finished {es : Config → List Event} (hph : s.phase = .ready)
    (hw : ∀ p, i.writes p s = s) (hes : ∀ p, i.events p s = es p) :
    Performs i s fun p => finished s (es p) i.ret :=
  performs_of_execWith fun p => by
    rw [execWith_accepted (by rw [hph]; rfl), Instr.outcome_eq_finished (hw p), hes]

theorem performs_turnedAway (hph : s.phase = .uninit) (hi : i.isInit = false) :
    Performs i s fun _ => turnedAway s .uninitialized :=
  performs_of_execWith fun _ => execWith_refused (accepts_eq_false_iff.2 ⟨hph, hi⟩)

theorem Instr.events_of_one_send {p : Config} (b : Sent) (hi : i.isInit = false)
    (hsends : i.sends p s = [b]) (hwait : i.closingWait = 0) :
    i.events p s = s.sendEvents b.value b.isData := by
  rw [Instr.events_of_not_init hi, hsends, hwait]
  simp [waitEvents]

/-! ### WRITE and COMMAND -/

theorem decode_of_reqOp_write {w : ReqWord} (h : reqOp w = 0x11) :
    decode w = .ok (.write (reqA w)) := by
  simp [decode, h]

theorem decode_of_reqOp_command {w : ReqWord} (h : reqOp w = 0x12) :
    decode w = .ok (.command (reqA w)) := by
  simp [decode, h]

/-- The whole effect of WRITE in `READY` is one data send (R123). -/
theorem performs_write (hph : s.phase = .ready) (byte : Byte) :
    Performs (.write byte) s fun _ => finished s (s.sendEvents byte true) 1 :=
  performs_finished hph (fun _ => rfl) fun _ => Instr.events_of_one_send ⟨byte, true⟩ rfl rfl rfl

/-- The whole effect of COMMAND in `READY` is one command send (R124). -/
theorem performs_command (hph : s.phase = .ready) (byte : Byte) :
    Performs (.command byte) s fun _ => finished s (s.sendEvents byte false) 0 :=
  performs_finished hph (fun _ => rfl) fun _ => Instr.events_of_one_send ⟨byte, false⟩ rfl rfl rfl

/-! ### The obligations of the framing -/

/-- Settles O41: the pieces of the operation's events, framed on the pins it has written. -/
theorem onlyFramesAndWaits : Obligations.OnlyFramesAndWaits := by
  intro p i s t hacc ht
  obtain rfl := eq_outcome_of_ran ht hacc
  obtain ⟨_, ⟨gs, rfl, -⟩, hpieces⟩ := Instr.events_eq_pinModesOf_append p (i.writes p s) i
  have htrace : (i.outcome p s).trace = s.trace ++ i.events p (i.writes p s) := by
    simp [Instr.outcome]
  refine ⟨gs, ?_⟩
  rw [htrace, hpieces, ← List.append_assoc]
  rfl

/-- Settles O18: the frame's events in the mode the flag selects. -/
theorem frameTxEvents : Obligations.FrameTxEvents := by
  refine fun s f => ⟨fun h => ?twoWire, fun h => ?threeWire⟩
  all_goals simp [State.frameTx_eq, State.frameEvents, State.emits, h]

/-- Settles O20: the word of op code `0x11`, the one data send, and the refusal before INIT. -/
theorem writeSendsDataByte : Obligations.WriteSendsDataByte :=
  ⟨⟨fun _ => decode_of_reqOp_write, fun w _ hph => performs_write hph (reqA w),
    fun _ _ hph => performs_turnedAway hph rfl⟩, fun byte _ hph => performs_write hph byte⟩

/-- Settles O21: the word of op code `0x12`, the one command send, and the refusal before INIT. -/
theorem commandSendsByteVerbatim : Obligations.CommandSendsByteVerbatim :=
  ⟨⟨fun _ => decode_of_reqOp_command, fun w _ hph => performs_command hph (reqA w),
    fun _ _ hph => performs_turnedAway hph rfl⟩, fun byte _ hph => performs_command hph byte⟩

end Sys2Proof.Machine
end

section
/-! The display commands (`42_display_commands.md`): CLEAR and HOME with their long wait, SETCURSOR
and its row clamp, the two scrolls, and CREATECHAR with its glyph location (R140 to R146). -/

namespace Sys2Proof.Machine

open Sys2Proof.Claims

variable {p : Config} {s : State} {i : Instr}

/-! ### Operations that write no register -/

/-- The rule of such an operation, from the decoder's arm and its events in closed form. -/
theorem plainRule_of_events {op : Byte} {i : ReqWord → Instr}
    {es : Config → ReqWord → State → List Event} {ret : Byte}
    (hdec : ∀ w, reqOp w = op → decode w = .ok (i w)) (hi : ∀ w, (i w).isInit = false)
    (hret : ∀ w, (i w).ret = ret) (hw : ∀ p w s, (i w).writes p s = s)
    (hes : ∀ p w s, (i w).events p s = es p w s) : PlainRule op i es ret := by
  refine ⟨hdec, fun w s hph => ?_, fun w s hph => performs_turnedAway hph (hi w)⟩
  rw [← hret w]
  exact performs_finished hph (fun p => hw p w s) fun p => hes p w s

/-- A single send, then the long wait behind the settle that ends the send (R140, R141). -/
theorem Instr.events_of_one_long_send (b : Sent) (hi : i.isInit = false)
    (hsends : i.sends p s = [b]) (hwait : i.closingWait = Config.longUs) :
    i.events p s = s.sendEvents b.value b.isData ++ [.delay 2000] := by
  rw [Instr.events_of_not_init hi, hsends, hwait]
  simp [waitEvents, Config.longUs]

/-- Settles O22: one command send each, then the long wait. -/
theorem clearAndHomeWaitLong : Obligations.ClearAndHomeWaitLong := by
  refine ⟨plainRule_of_events ?clearWord (fun _ => rfl) (fun _ => rfl) (fun _ _ _ => rfl)
      fun p _ _ => Instr.events_of_one_long_send ⟨p.cmd.clear, false⟩ rfl rfl rfl,
    plainRule_of_events ?homeWord (fun _ => rfl) (fun _ => rfl) (fun _ _ _ => rfl)
      fun p _ _ => Instr.events_of_one_long_send ⟨p.cmd.home, false⟩ rfl rfl rfl⟩
  all_goals exact fun w h => by simp [decode, h]

/-- Settles O26: one command send each, of the shift command with its direction bit. -/
theorem scrollsSendShiftCommand : Obligations.ScrollsSendShiftCommand := by
  refine ⟨plainRule_of_events ?leftWord (fun _ => rfl) (fun _ => rfl) (fun _ _ _ => rfl) ?left,
    plainRule_of_events ?rightWord (fun _ => rfl) (fun _ => rfl) (fun _ _ _ => rfl) ?right⟩
  case left =>
    exact fun p _ _ => Instr.events_of_one_send ⟨p.cmd.shift ||| p.cmd.shDisplay, false⟩ rfl rfl rfl
  case right =>
    intro p w s
    rw [BitVec.or_assoc]
    exact Instr.events_of_one_send
      ⟨p.cmd.shift ||| (p.cmd.shDisplay ||| p.cmd.shRight), false⟩ rfl rfl rfl
  all_goals exact fun w h => by simp [decode, h]

/-! ### SETCURSOR -/

theorem performs_setCursor (hph : s.phase = .ready) (col row : Byte) :
    Performs (.setCursor col row) s fun p => finished s
      (s.sendEvents (p.cmd.setDdram ||| ddramAddress s.numLines col row) false) 0 :=
  performs_of_execWith fun p => execWith_setCursor p hph col row

/-- Settles O23: the mapped address is the column plus the offset of the clamped row. -/
theorem setCursorSendsAddress : Obligations.SetCursorSendsAddress :=
  ⟨fun w h => by simp [decode, h], fun _ col row hph => performs_setCursor hph col row,
    fun _ _ _ hph => performs_turnedAway hph rfl⟩

/-- A row above the line count acts as the last row (R143). -/
theorem clampRow_of_lt {numLines : BitVec 2} {row : Byte} (h : numLines.setWidth 8 < row) :
    clampRow numLines row = numLines - 1 :=
  if_pos h

/-- The column of R143's table for one line: only the row equal to the line count, which passes the
strict comparison, reaches the second offset. -/
theorem rowOffset_clampRow_one_line (row : Byte) :
    rowOffset (clampRow 1 row) = if row = 1 then 0x40 else 0x00 := by
  by_cases h : (1 : BitVec 2).setWidth 8 < row
  · have hne : row ≠ 1 := by rintro rfl; exact absurd h (by decide)
    rw [clampRow_of_lt h, if_neg hne]
    rfl
  · have hrow : row = 0 ∨ row = 1 := by bv_omega
    obtain rfl | rfl := hrow <;> rfl

/-- The column of R143's table for two lines: the row equal to the line count reaches the third
offset, every row above it the second. -/
theorem rowOffset_clampRow_two_lines (row : Byte) :
    rowOffset (clampRow 2 row) = if row = 0 then 0x00 else if row = 2 then 0x14 else 0x40 := by
  by_cases h : (2 : BitVec 2).setWidth 8 < row
  · have hne0 : row ≠ 0 := by rintro rfl; exact absurd h (by decide)
    have hne2 : row ≠ 2 := by rintro rfl; exact absurd h (by decide)
    rw [clampRow_of_lt h, if_neg hne0, if_neg hne2]
    rfl
  · have hrow : row = 0 ∨ row = 1 ∨ row = 2 := by bv_omega
    obtain rfl | rfl | rfl := hrow <;> rfl

/-- Settles O24: the address SETCURSOR sends, by the table of the clamp for each line count. -/
theorem rowClampOutcomes : Obligations.RowClampOutcomes := by
  refine fun s col row hph => ⟨fun hlines => ?oneLine, fun hlines => ?twoLines⟩
  case oneLine =>
    simpa only [ddramAddress, hlines, rowOffset_clampRow_one_line] using
      performs_setCursor hph col row
  case twoLines =>
    simpa only [ddramAddress, hlines, rowOffset_clampRow_two_lines] using
      performs_setCursor hph col row

/-! ### CREATECHAR -/

section glyph
variable (location g0 g1 g2 g3 g4 g5 g6 g7 : Byte)

theorem Instr.events_createChar (p : Config) (s : State) :
    Instr.events p s (.createChar location g0 g1 g2 g3 g4 g5 g6 g7) =
      s.glyphEvents p location [g0, g1, g2, g3, g4, g5, g6, g7] := by
  rw [Instr.events_of_not_init rfl]
  simp [Instr.sends, Instr.closingWait, waitEvents, State.glyphEvents, State.rowsEvents,
    cgramAddress]

theorem performs_createChar (hph : s.phase = .ready) :
    Performs (.createChar location g0 g1 g2 g3 g4 g5 g6 g7) s fun p =>
      finished s (s.glyphEvents p location [g0, g1, g2, g3, g4, g5, g6, g7]) 0 :=
  performs_finished hph (fun _ => rfl) fun _ => Instr.events_createChar ..

theorem State.glyphEvents_congr {location location' : Byte}
    (h : cgramAddress location = cgramAddress location') (rows : List Byte) :
    s.glyphEvents p location rows = s.glyphEvents p location' rows := by
  rw [cgramAddress, cgramAddress] at h
  rw [State.glyphEvents, State.glyphEvents, h]

/-- CREATECHAR looks at its location through the slot address only (R83). -/
theorem execWith_createChar_congr {location location' : Byte}
    (h : cgramAddress location = cgramAddress location') :
    execWith p (.createChar location g0 g1 g2 g3 g4 g5 g6 g7) s =
      execWith p (.createChar location' g0 g1 g2 g3 g4 g5 g6 g7) s := by
  cases hph : s.phase with
  | ready =>
    simp only [(performs_createChar _ g0 g1 g2 g3 g4 g5 g6 g7 hph).2 p, State.glyphEvents_congr h]
  | uninit => rw [(performs_turnedAway hph rfl).2 p, (performs_turnedAway hph rfl).2 p]

end glyph

/-- The mask of the glyph location keeps its low three bits. -/
theorem and_seven_eq_setWidth (x : Byte) : x &&& 7 = (x.extractLsb' 0 3).setWidth 8 := by
  ext k hk
  interval_cases k <;> simp

theorem cgramAddress_congr {x y : Byte} (h : x.extractLsb' 0 3 = y.extractLsb' 0 3) :
    cgramAddress x = cgramAddress y := by
  have hmask : x &&& 7 = y &&& 7 := by
    rw [and_seven_eq_setWidth, and_seven_eq_setWidth, h]
  rw [cgramAddress, cgramAddress, hmask]

/-- Settles O27: the word of op code `0x10`, and its glyph's events in order. -/
theorem createCharSendsGlyph : Obligations.CreateCharSendsGlyph := by
  refine ⟨plainRule_of_events (fun w h => by simp [decode, h]) (fun _ => rfl) (fun _ => rfl)
      (fun _ _ _ => rfl) fun p w s => ?_,
    fun s location g0 g1 g2 g3 g4 g5 g6 g7 hph =>
      performs_createChar location g0 g1 g2 g3 g4 g5 g6 g7 hph⟩
  rw [Instr.events_createChar]
  simp [State.glyphEvents, State.rowsEvents]

/-- Settles O28: locations that agree in the low three bits have the same slot address. -/
theorem glyphLocationMasked : Obligations.GlyphLocationMasked := by
  intro s location location' g0 g1 g2 g3 g4 g5 g6 g7 h
  have hwith (p : Config) := execWith_createChar_congr (p := p) (s := s) g0 g1 g2 g3 g4 g5 g6 g7
    (cgramAddress_congr h)
  exact ⟨by rw [exec_eq_execWith_block, exec_eq_execWith_block]; exact hwith .block, hwith⟩

end Sys2Proof.Machine
end

section
/-! The mode registers (`43_mode_registers.md`): the ten operations that set or clear one bit of
`DCTRL` or `EMODE` and send the whole byte (R160 to R170), requested twice (R171), and what they leave
alone (R172). -/

namespace Sys2Proof.Machine

open Sys2Proof.Claims

variable {p : Config} {s t u : State} {i : Instr} {m bit : Byte} {k : Nat} {on : Bool}

/-! ### One bit of a mask -/

/-- A bit set or cleared twice is as it was set or cleared once (R171). -/
theorem updateBit_updateBit (m bit : Byte) (on : Bool) :
    updateBit (updateBit m bit on) bit on = updateBit m bit on := by
  cases on with
  | true => simp [updateBit, setBits, BitVec.or_assoc]
  | false => simp [updateBit, clearBits, BitVec.and_assoc]

/-- The read-modify-write keeps the bits that are zero in the constant (R172). -/
theorem getLsbD_updateBit (hb : bit.getLsbD k = false) :
    (updateBit m bit on).getLsbD k = m.getLsbD k := by
  cases on with
  | true => simp [updateBit, setBits, hb]
  | false => simpa [updateBit, clearBits, hb] using m.lt_of_getLsbD

/-- The place of a flag in `DCTRL` (R27). -/
def DispFlag.index : DispFlag → Nat
  | .display => 2
  | .cursor => 1
  | .blink => 0

/-- The place of a flag in `EMODE` (R28). -/
def EntryFlag.index : EntryFlag → Nat
  | .left => 1
  | .shiftInc => 0

theorem DispFlag.getLsbD_bit (f : DispFlag) (h : k ≠ f.index) :
    (f.bit .hd44780).getLsbD k = false := by
  have hbit : f.bit .hd44780 = BitVec.twoPow 8 f.index := by cases f <;> rfl
  simp [hbit, h.symm]

theorem EntryFlag.getLsbD_bit (f : EntryFlag) (h : k ≠ f.index) :
    (f.bit .hd44780).getLsbD k = false := by
  have hbit : f.bit .hd44780 = BitVec.twoPow 8 f.index := by cases f <;> rfl
  simp [hbit, h.symm]

/-! ### What a performed request answers -/

theorem eq_of_ran_of_performs {f : Config → State} (hran : Ran p i s t) (hperf : Performs i s f) :
    t = f p := by
  have hnext := (execWith_of_ran hran).symm.trans (hperf.2 p)
  cases hnext; rfl

theorem sameRegisters_finished (s : State) (es : List Event) (ret : Byte) :
    SameRegisters s (finished s es ret) :=
  ⟨rfl, rfl, rfl, rfl, rfl, rfl, rfl, rfl, rfl, rfl, rfl⟩

theorem State.sendEvents_ne_nil (s : State) (value : Byte) (isData : Bool) :
    s.sendEvents value isData ≠ [] := by
  simp [State.sendEvents]

/-! ### The ten operations by flag and value -/

/-- A flag of either mask. -/
inductive ModeFlag where
  | disp (f : DispFlag)
  | entry (f : EntryFlag)

namespace ModeFlag

/-- The operation that sets or clears a flag (R161 to R170). -/
def op : ModeFlag → Bool → Instr
  | .disp .display, true => .display
  | .disp .display, false => .noDisplay
  | .disp .cursor, true => .cursor
  | .disp .cursor, false => .noCursor
  | .disp .blink, true => .blink
  | .disp .blink, false => .noBlink
  | .entry .left, true => .shiftLeft
  | .entry .left, false => .shiftRight
  | .entry .shiftInc, true => .shiftInc
  | .entry .shiftInc, false => .shiftDec

/-- The read-modify-write of the flag's mask. -/
def update (p : Config) (on : Bool) (s : State) : ModeFlag → State
  | .disp f => s.updateDctrl p f on
  | .entry f => s.updateEmode p f on

/-- The controller byte composed from the flag's mask (R81). -/
def command (p : Config) (s : State) : ModeFlag → Byte
  | .disp _ => p.cmd.dispCtrl ||| s.dctrl
  | .entry _ => p.cmd.entryMode ||| s.emode

theorem exists_op (h : IsMode i) : ∃ (f : ModeFlag) (on : Bool), i = f.op on := by
  cases i with
  | display => exact ⟨.disp .display, true, rfl⟩
  | noDisplay => exact ⟨.disp .display, false, rfl⟩
  | cursor => exact ⟨.disp .cursor, true, rfl⟩
  | noCursor => exact ⟨.disp .cursor, false, rfl⟩
  | blink => exact ⟨.disp .blink, true, rfl⟩
  | noBlink => exact ⟨.disp .blink, false, rfl⟩
  | shiftLeft => exact ⟨.entry .left, true, rfl⟩
  | shiftRight => exact ⟨.entry .left, false, rfl⟩
  | shiftInc => exact ⟨.entry .shiftInc, true, rfl⟩
  | shiftDec => exact ⟨.entry .shiftInc, false, rfl⟩
  | _ => simp [IsMode] at h

theorem execWith_disp (f : DispFlag) (on : Bool) (p : Config) (s : State) :
    execWith p (op (.disp f) on) s = ifReady s 0 (displayMode p f on) := by
  cases f <;> cases on <;> rfl

theorem execWith_entry (f : EntryFlag) (on : Bool) (p : Config) (s : State) :
    execWith p (op (.entry f) on) s = ifReady s 0 (entryMode p f on) := by
  cases f <;> cases on <;> rfl

variable (f : ModeFlag) (on : Bool)

theorem decode_of_reqOp {w : ReqWord} (h : reqOp w = (f.op on).opcode) :
    decode w = .ok (f.op on) := by
  cases f with
  | disp f => cases f <;> cases on <;> simp [decode, h, op, Instr.opcode]
  | entry f => cases f <;> cases on <;> simp [decode, h, op, Instr.opcode]

/-- In `READY`: the mask takes its new value, then the byte composed from it is sent (R160). -/
theorem performs_op (hph : s.phase = .ready) : Performs (f.op on) s fun p =>
    finished (f.update p on s) (s.sendEvents (f.command p (f.update p on s)) false) 0 :=
  performs_of_execWith fun p => by
    cases f with
    | disp f => rw [execWith_disp, ifReady_of_ready _ hph, displayMode_eq]; rfl
    | entry f => rw [execWith_entry, ifReady_of_ready _ hph, entryMode_eq]; rfl

theorem performs_op_uninit (hph : s.phase = .uninit) :
    Performs (f.op on) s fun _ => turnedAway s .uninitialized :=
  performs_of_execWith fun p => by
    cases f with
    | disp f => rw [execWith_disp, ifReady_of_uninit _ hph]; rfl
    | entry f => rw [execWith_entry, ifReady_of_uninit _ hph]; rfl

/-- A request finds its mask as an equal request before it has left it (R171). -/
theorem update_finished_update (es : List Event) (ret : Byte) :
    f.update p on (finished (f.update p on s) es ret) = finished (f.update p on s) es ret := by
  cases f <;> simp [update, finished, State.updateDctrl, State.updateEmode, updateBit_updateBit]

theorem sendEvents_finished_update (es : List Event) (ret value : Byte) (isData : Bool) :
    (finished (f.update p on s) es ret).sendEvents value isData = s.sendEvents value isData := by
  cases f <;> rfl

/-- The second of two equal requests adds the first one's events again, and no register changes
(R171). -/
theorem ran_op_twice (hph : s.phase = .ready) (ht : Ran p (f.op on) s t)
    (hu : Ran p (f.op on) t u) :
    ∃ es, es ≠ [] ∧ t.trace = s.trace ++ es ∧ u = finished t es 0 := by
  obtain rfl := eq_of_ran_of_performs ht (f.performs_op on hph)
  have hph' : (f.update p on s).phase = .ready := by cases f <;> exact hph
  have htrace : (f.update p on s).trace = s.trace := by cases f <;> rfl
  obtain rfl := eq_of_ran_of_performs hu (f.performs_op on hph')
  refine ⟨_, s.sendEvents_ne_nil _ false, congrArg (· ++ _) htrace, ?_⟩
  rw [update_finished_update, sendEvents_finished_update]
  cases f <;> rfl

end ModeFlag

/-! ### The two masks -/

theorem displayRule_op (f : DispFlag) (on : Bool) :
    DisplayRule (ModeFlag.op (.disp f) on).opcode (ModeFlag.op (.disp f) on)
      fun t m => updateBit m (f.bit t) on :=
  ⟨fun _ => ModeFlag.decode_of_reqOp (.disp f) on, fun _ => ModeFlag.performs_op (.disp f) on,
    fun _ => ModeFlag.performs_op_uninit (.disp f) on⟩

theorem entryRule_op (f : EntryFlag) (on : Bool) :
    EntryRule (ModeFlag.op (.entry f) on).opcode (ModeFlag.op (.entry f) on)
      fun t m => updateBit m (f.bit t) on :=
  ⟨fun _ => ModeFlag.decode_of_reqOp (.entry f) on, fun _ => ModeFlag.performs_op (.entry f) on,
    fun _ => ModeFlag.performs_op_uninit (.entry f) on⟩

/-- Whether a flag of `DCTRL` is set or cleared, the other bits and registers stay (R172). -/
theorem dctrl_independent (f : DispFlag) (hp : p.cmd = .hd44780) (hph : s.phase = .ready)
    (h : Ran p (ModeFlag.op (.disp f) true) s t ∨ Ran p (ModeFlag.op (.disp f) false) s t) :
    (k ≠ f.index → t.dctrl.getLsbD k = s.dctrl.getLsbD k) ∧
      SameRegisters { s with dctrl := t.dctrl } t := by
  obtain ⟨on, hran⟩ : ∃ on, Ran p (ModeFlag.op (.disp f) on) s t := (Bool.exists_bool' true).2 h
  obtain rfl := eq_of_ran_of_performs hran (ModeFlag.performs_op (.disp f) on hph)
  refine ⟨fun hk => getLsbD_updateBit ?_, sameRegisters_finished ..⟩
  rw [hp, f.getLsbD_bit hk]

/-- Whether a flag of `EMODE` is set or cleared, the other bits and registers stay (R172). -/
theorem emode_independent (f : EntryFlag) (hp : p.cmd = .hd44780) (hph : s.phase = .ready)
    (h : Ran p (ModeFlag.op (.entry f) true) s t ∨ Ran p (ModeFlag.op (.entry f) false) s t) :
    (k ≠ f.index → t.emode.getLsbD k = s.emode.getLsbD k) ∧
      SameRegisters { s with emode := t.emode } t := by
  obtain ⟨on, hran⟩ : ∃ on, Ran p (ModeFlag.op (.entry f) on) s t := (Bool.exists_bool' true).2 h
  obtain rfl := eq_of_ran_of_performs hran (ModeFlag.performs_op (.entry f) on hph)
  refine ⟨fun hk => getLsbD_updateBit ?_, sameRegisters_finished ..⟩
  rw [hp, f.getLsbD_bit hk]

/-! ### The obligations of the mode registers -/

/-- Settles O29: the six operations are the three flags of `DCTRL`, set and cleared. -/
theorem displayControlOperations : Obligations.DisplayControlOperations :=
  ⟨displayRule_op .display true, displayRule_op .display false,
    displayRule_op .cursor true, displayRule_op .cursor false,
    displayRule_op .blink true, displayRule_op .blink false⟩

/-- Settles O30: the four operations are the two flags of `EMODE`, set and cleared. -/
theorem entryModeOperations : Obligations.EntryModeOperations :=
  ⟨entryRule_op .left true, entryRule_op .left false,
    entryRule_op .shiftInc true, entryRule_op .shiftInc false⟩

/-- Settles O31: the second request finds its mask as it leaves it, so only the trace and the
completions grow. -/
theorem modeOperationsIdempotent : Obligations.ModeOperationsIdempotent := by
  intro p i s t u hi hph ht hu
  obtain ⟨f, on, rfl⟩ := ModeFlag.exists_op hi
  obtain ⟨es, hne, htrace, rfl⟩ := f.ran_op_twice on hph ht hu
  exact ⟨sameRegisters_finished .., es, hne, htrace, rfl⟩

/-- Settles O32: each constant of the default table is one bit, and only its mask is written. -/
theorem modeOperationsIndependent : Obligations.ModeOperationsIndependent :=
  fun _ _ _ _ hp hph =>
    ⟨dctrl_independent .display hp hph, dctrl_independent .cursor hp hph,
      dctrl_independent .blink hp hph, emode_independent .left hp hph,
      emode_independent .shiftInc hp hph⟩

end Sys2Proof.Machine
end

section
/-! Refusal and reset (R180 to R185, R200 to R202): which requests an idle port refuses, that every
step answers a next state, and that reset wins over whatever is at the port or in flight. -/

namespace Sys2Proof.Machine

open Sys2Proof.Claims

variable {p : Config} {s : State} {w : ReqWord} {rest : List HostInput} {i : Instr}

/-! ### Reset -/

theorem stepIdle_reset {run : Runner}
    (hin : s.inputs = .reset :: rest ∨ s.inputs = .resetWithRequest w :: rest) :
    stepIdle run s = .next (State.applyReset { s with inputs := rest }) := by
  unfold stepIdle
  obtain hin | hin := hin <;> rw [hin]

theorem stepRunning_reset (p : Config)
    (hin : s.inputs = .reset :: rest ∨ s.inputs = .resetWithRequest w :: rest) :
    stepRunning s p = State.applyReset { s with inputs := rest } := by
  unfold stepRunning
  obtain hin | hin := hin <;> rw [hin]

/-- Reset does not ask where the sequencer stands (R202). -/
theorem stepWith_reset (p : Config)
    (hin : s.inputs = .reset :: rest ∨ s.inputs = .resetWithRequest w :: rest) :
    stepWith p s = .next (State.applyReset { s with inputs := rest }) := by
  cases hseq : s.seq with
  | idle => exact (stepWith_idle hseq).trans (stepIdle_reset hin)
  | running i n =>
    exact (stepWith_running hseq).trans (congrArg Host.Outcome.next (stepRunning_reset p hin))

/-- Settles O2: a reset at the port is applied, idle or with an operation in flight. -/
theorem resetWinsAndAbandons : Obligations.ResetWinsAndAbandons :=
  fun _ _ _ hin => stepsTo_of_stepWith fun p => stepWith_reset p hin

/-! ### Every step answers -/

theorem exists_execWith_eq_next (p : Config) (i : Instr) (s : State) :
    ∃ t, execWith p i s = .next t := by
  cases hacc : accepts s.phase i with
  | true => exact ⟨_, execWith_accepted hacc⟩
  | false => exact ⟨_, execWith_refused hacc⟩

theorem exists_serve_eq_next (p : Config) (w : ReqWord) (s : State) :
    ∃ t, serve (execWith p) w s = .next t := by
  cases hdec : decode w with
  | ok i => rw [serve_ok hdec]; exact exists_execWith_eq_next p i s
  | error e => exact ⟨_, serve_error hdec⟩

theorem exists_stepIdle_eq_next (p : Config) (s : State) :
    ∃ t, stepIdle (execWith p) s = .next t := by
  unfold stepIdle
  split
  case h_2 w rest _ => exact exists_serve_eq_next p w _
  all_goals exact ⟨_, rfl⟩

theorem exists_stepWith_eq_next (p : Config) (s : State) : ∃ t, stepWith p s = .next t := by
  cases hseq : s.seq with
  | idle => rw [stepWith_idle hseq]; exact exists_stepIdle_eq_next p s
  | running i n => exact ⟨_, stepWith_running hseq⟩

/-- Settles O5: in flight a step is a tick or a reset; an idle port answers each input, a request by
the outcome of its operation or by the refusal. -/
theorem everyStepAnswersNext : Obligations.EveryStepAnswersNext := by
  intro s
  choose t ht using fun p => exists_stepWith_eq_next p s
  exact ⟨t, stepsTo_of_stepWith ht⟩

/-! ### Which requests are refused -/

/-- The requests that R184 refuses: (a) another than INIT in `UNINIT`, (b) a reserved op code. -/
def RefusedRequest (s : State) (w : ReqWord) : Prop :=
  (s.phase = .uninit ∧ reqOp w ≠ 0x00) ∨ 0x13 ≤ (reqOp w).toNat

theorem Instr.isInit_iff (i : Instr) : i.isInit = true ↔ i.opcode = 0x00 := by
  cases i <;> simp [Instr.isInit, Instr.opcode]

/-- A request is refused if its op code is reserved or its operation is not accepted now. -/
theorem refusedRequest_iff : RefusedRequest s w ↔
    0x13 ≤ (reqOp w).toNat ∨ ∃ i, decode w = .ok i ∧ accepts s.phase i = false := by
  by_cases hop : 0x13 ≤ (reqOp w).toNat
  · exact iff_of_true (.inr hop) (.inl hop)
  · obtain ⟨i, hdec⟩ := exists_decode_iff.2 (Nat.lt_of_not_le hop)
    have hinit : i.isInit = false ↔ reqOp w ≠ 0x00 := by
      rw [reqOp_of_decode hdec, Ne, ← Instr.isInit_iff i, Bool.not_eq_true]
    simp [RefusedRequest, hop, hdec, accepts_eq_false_iff, hinit]

theorem not_refusedRequest_iff :
    ¬ RefusedRequest s w ↔ ∃ i, decode w = .ok i ∧ accepts s.phase i = true := by
  rw [refusedRequest_iff, not_or, Nat.not_le, ← exists_decode_iff]
  constructor
  · rintro ⟨⟨i, hdec⟩, hno⟩
    exact ⟨i, hdec, Bool.ne_false_iff.1 fun hacc => hno ⟨i, hdec, hacc⟩⟩
  · rintro ⟨i, hdec, hacc⟩
    simp [hdec, hacc]

/-! ### A request taken step by step -/

theorem beginRequest_accepted (hdec : decode w = .ok i) (hacc : accepts s.phase i = true) :
    beginRequest w s = { s with seq := .running i 0 } := by
  unfold beginRequest; rw [hdec]; exact if_pos hacc

theorem beginRequest_uninitialized (hdec : decode w = .ok i) (hacc : accepts s.phase i = false) :
    beginRequest w s = s.refuse .uninitialized := by
  unfold beginRequest; rw [hdec]; exact if_neg (Bool.eq_false_iff.1 hacc)

theorem stepsTo_begin {t : State} (hseq : s.seq = .idle) (hin : s.inputs = .begin w :: rest)
    (ht : beginRequest w { s with inputs := rest } = t) : StepsTo s fun _ => t :=
  stepsTo_of_stepWith fun p => by rw [stepWith_idle hseq, stepIdle_begin hin, ht]

/-! ### A refused request and a performed one -/

/-- A refused request only completes, taken whole or step by step (R184). -/
theorem stepsTo_turnedAway (hseq : s.seq = .idle)
    (hin : s.inputs = .request w :: rest ∨ s.inputs = .begin w :: rest)
    (href : RefusedRequest s w) :
    ∃ why, StepsTo s fun _ => turnedAway { s with inputs := rest } why := by
  obtain hop | ⟨i, hdec, hacc⟩ := refusedRequest_iff.1 href
  · exact ⟨_, stepsTo_reserved hseq hin hop⟩
  · refine ⟨.uninitialized, ?_⟩
    obtain hin | hin := hin
    · exact stepsTo_uninitialized hseq hin hdec hacc
    · exact stepsTo_begin hseq hin (beginRequest_uninitialized hdec hacc)

/-- Every accepted operation leaves the block ready: INIT makes it so, the others are accepted in
`READY` only (R114, R184). -/
theorem Instr.outcome_ready (hacc : accepts s.phase i = true) : (i.outcome p s).phase = .ready := by
  rw [Instr.outcome_phase]
  split
  next => rfl
  next hi => exact ready_of_accepts hacc (Bool.eq_false_iff.2 hi)

theorem Instr.outcome_completions (p : Config) (s : State) (i : Instr) :
    (i.outcome p s).completions = s.completions ++ [⟨i.ret, .performed⟩] := by
  simp [Instr.outcome]

/-- Settles O9: the two grounds of refusal, and otherwise the operation the word decodes to. -/
theorem refusedExactlyWhen : Obligations.RefusedExactlyWhen := by
  intro s w rest hseq
  refine ⟨fun href hin => stepsTo_turnedAway hseq hin href, fun hnot => ?_⟩
  obtain ⟨i, hdec, hacc⟩ := not_refusedRequest_iff.1 hnot
  constructor
  · intro hin
    exact ⟨_, i.ret, stepsTo_accepted hseq hin hdec hacc,
      fun p => ⟨Instr.outcome_ready hacc, Instr.outcome_completions p _ i⟩⟩
  · intro hin
    exact ⟨i, hdec, stepsTo_begin hseq hin (beginRequest_accepted hdec hacc)⟩

/-! ### The mark of a refusal -/

/-- A refusal on the record is there for good (log 3). -/
theorem allPerformed_turnedAway (s : State) (why : RefusedBecause) :
    (turnedAway s why).allPerformed = false := by
  simp [turnedAway, State.allPerformed]

theorem allPerformed_outcome (p : Config) (s : State) (i : Instr) :
    (i.outcome p s).allPerformed = s.allPerformed := by
  simp [State.allPerformed, Instr.outcome_completions]

/-- Settles O10: a performed request keeps the record, a refused one breaks it. -/
theorem refusalIsNoSuccess : Obligations.RefusalIsNoSuccess := by
  intro s w rest hseq hin
  by_cases href : RefusedRequest s w
  · obtain ⟨why, hstep⟩ := stepsTo_turnedAway hseq (.inl hin) href
    exact ⟨_, hstep, fun p => iff_of_false (by simp [allPerformed_turnedAway])
      fun h => h.2 href⟩
  · obtain ⟨i, hdec, hacc⟩ := not_refusedRequest_iff.1 href
    refine ⟨_, stepsTo_accepted hseq hin hdec hacc, fun p => ?_⟩
    rw [allPerformed_outcome]
    exact (and_iff_left href).symm

end Sys2Proof.Machine
end

section
/-! Reset and hazards (`70_reset_and_hazards.md`): a reset inside an operation (R202), the interface
width after the handshake (R210), the masks a raw command leaves stale (R212), and the delay each
operation requests (R215). -/

namespace Sys2Proof.Machine

open Sys2Proof.Claims

variable {p : Config} {i : Instr}

/-! ### The handshake and the raw command -/

/-- Settles O39: the handshake appends its events, whose reading ends at a byte boundary of the 4-bit
interface from every interface state. -/
theorem handshakeEndsInFourBitMode : Obligations.HandshakeEndsInFourBitMode := by
  intro p s mixed r hp hr
  rw [State.handshake_eq, State.emits_trace, Reader.read_append]
  exact (Reader.read_handshakeEvents mixed hp s _ hr).1

/-- Settles O33: COMMAND only emits and completes, so CURSOR finds the mask of before. -/
theorem rawCommandLeavesMasksStale : Obligations.RawCommandLeavesMasksStale :=
  fun _ byte hph => ⟨_, performs_command hph byte, sameRegisters_finished ..,
    ModeFlag.performs_op (.disp .cursor) true hph⟩

/-! ### The delay of the procedures -/

@[simp] theorem totalDelay_waitEvents (us : Nat) : totalDelay (waitEvents us) = us := by
  unfold waitEvents
  split
  next h => exact h.symm
  next => rfl

/-- A frame waits for the enable pulse only, in either wire mode (R120). -/
@[simp] theorem State.totalDelay_frameEvents (s : State) (f : Byte) :
    totalDelay (s.frameEvents f) = Config.pulseUs := by
  unfold State.frameEvents
  split <;> rfl

/-- The delay of a full send (R121): two frames and the settle. -/
@[simp] theorem State.totalDelay_sendEvents (s : State) (value : Byte) (isData : Bool) :
    totalDelay (s.sendEvents value isData) = 42 := by
  simp only [State.sendEvents, totalDelay_append, State.totalDelay_frameEvents]
  rfl

/-- The delay of a nibble-only send (R122): one frame and the nibble settle. -/
@[simp] theorem State.totalDelay_nibbleEvents (p : Config) (s : State) (value : Byte) :
    totalDelay (s.nibbleEvents p value) = Config.pulseUs + p.nibbleSettleUs := by
  simp [State.nibbleEvents, totalDelay_append]

theorem State.totalDelay_sends (s : State) (bs : List Sent) :
    totalDelay (bs.flatMap fun b => s.sendEvents b.value b.isData) = bs.length * 42 := by
  induction bs with
  | nil => rfl
  | cons b bs ih =>
    rw [List.flatMap_cons, totalDelay_append, State.totalDelay_sendEvents, ih, List.length_cons,
      Nat.succ_mul, Nat.add_comm]

/-- The delay of the handshake (R104 to R106): four nibble-only sends and the waits between them. -/
theorem State.totalDelay_handshakeEvents (hn : p.nibbleSettleUs = 40) (s : State) :
    totalDelay (s.handshakeEvents p) = 54814 := by
  simp only [State.handshakeEvents, totalDelay_append, totalDelay_waitEvents,
    State.totalDelay_nibbleEvents, hn]
  rfl

/-- The delay of the commands that end INIT (R107 to R111): five sends and two long waits. -/
theorem State.totalDelay_setupEvents (p : Config) (s : State) :
    totalDelay (s.setupEvents p) = 4210 := by
  simp only [State.setupEvents, totalDelay_append, totalDelay_waitEvents,
    State.totalDelay_sendEvents]
  rfl

/-! ### The delay of the operations -/

theorem Instr.outcome_trace (p : Config) (s : State) (i : Instr) :
    (i.outcome p s).trace = s.trace ++ i.events p (i.writes p s) := by
  simp [Instr.outcome]

/-- The delay of an accepted operation, whatever the wire mode and the masks (R215). -/
theorem Instr.totalDelay_events (hn : p.nibbleSettleUs = 40) (s : State) (i : Instr) :
    totalDelay (i.events p s) = requestedDelay i := by
  cases hi : i.isInit with
  | true =>
    obtain ⟨d, c, e, lines, font, rfl⟩ := Instr.eq_init hi
    change totalDelay (s.initEvents p) = _
    rw [State.initEvents_eq, totalDelay_append, totalDelay_append,
      State.totalDelay_handshakeEvents hn, State.totalDelay_setupEvents]
    simp [totalDelay, requestedDelay]
  | false =>
    rw [Instr.events_of_not_init hi, totalDelay_append, State.totalDelay_sends,
      totalDelay_waitEvents]
    cases i with
    | init d c e lines font => cases hi
    | _ => simp [Instr.sends, Instr.closingWait, Config.longUs, requestedDelay]

/-- Settles O43: the trace grows by the events of the operation, whose delays add up by procedure. -/
theorem requestedDelayTotals : Obligations.RequestedDelayTotals := by
  intro p i s t es hn hacc ht hes
  obtain rfl := eq_outcome_of_ran ht hacc
  rw [Instr.outcome_trace] at hes
  rw [← List.append_cancel_left hes, Instr.totalDelay_events hn]

/-! ### Reset inside an operation -/

/-- Only the completion signals one (R70). -/
theorem perform_completions {m : Micro} (hm : m.isComplete = false) (s : State) :
    (m.perform p s).completions = s.completions := by
  have heff := perform_effect p m s
  generalize m.perform p s = u at heff
  cases heff with
  | complete ret => cases hm
  | _ => rfl

theorem performAll_completions {ms : List Micro} (hms : ∀ m ∈ ms, m.isComplete = false)
    (s : State) : (performAll p ms s).completions = s.completions := by
  induction ms generalizing s with
  | nil => rfl
  | cons m ms ih =>
    rw [List.forall_mem_cons] at hms
    rw [performAll_cons, ih hms.2, perform_completions hms.1]

/-- Short of its end an operation has done its first steps and none of them was the completion. -/
theorem ticks_short {k : Nat} (p : Config) (s : State) (hk : k < (microcode i).length) :
    { s with seq := .running i 0 }.ticks k p =
      (performAll p ((microcode i).take k) s).setSeq (.running i k) ∧
    ∀ m ∈ (microcode i).take k, m.isComplete = false := by
  obtain ⟨ms, ret, hms, hall⟩ := microcode_eq i
  have hall' : ∀ m ∈ ms, m.isComplete = false := by simpa using hall
  have hk' : k ≤ ms.length := by simpa [hms, Nat.lt_succ_iff] using hk
  have htake : (microcode i).take k = ms.take k := by rw [hms, List.take_append_of_le_length hk']
  rw [htake]
  exact ⟨ticks_eq_performAll hms hall' s k hk', fun m hm => hall' m (List.mem_of_mem_take hm)⟩

/-- The first steps of a list emit a prefix of what all of them emit. -/
theorem performAll_take_trace (p : Config) (ms : List Micro) (k : Nat) (s : State) :
    (performAll p (ms.take k) s).trace <+: (performAll p ms s).trace := by
  conv_rhs => rw [← List.take_append_drop k ms, performAll_append]
  exact performAll_trace p _ _

/-- Settles O51: the ticks are the first steps of the operation, and reset keeps what they emitted. -/
theorem abandonedOperationKeepsPrefix : Obligations.AbandonedOperationKeepsPrefix := by
  intro p i s t k rest _ hacc ht hk
  obtain ⟨hticks, hsteps⟩ := ticks_short p s hk
  have hwhole : performAll p (microcode i) s = t := by
    injection (execWith_eq_performAll hacc).symm.trans (execWith_of_ran ht)
  rw [hticks, ← hwhole]
  exact ⟨performAll_take_trace p _ k s, performAll_trace p _ s, _,
    stepsTo_of_stepWith fun p => stepWith_reset (w := 0) p (.inl rfl), rfl,
    performAll_completions hsteps s, rfl, rfl, rfl⟩

end Sys2Proof.Machine
end
